-- ==== Sys2Proof/Word.lean ====
section
/-! DEFINITION. The word types of MUMCORE (00_scope.md R8): every value is an unsigned integer of a fixed width. -/

namespace Sys2Proof

/-- `u8`: one key byte. -/
abbrev Byte := BitVec 8

/-- `u64`: a register, a key word, a key address, a length. -/
abbrev Word := BitVec 64

/-- `u128`: a 64×64 product, an operand of the 128-bit multiplier, a view of the 512-bit state. -/
abbrev DWord := BitVec 128

/-- `u256`: a 128×128 product. -/
abbrev QWord := BitVec 256

end Sys2Proof
end

