-- ==== Sys2Proof/Syntax.lean ====
section
/-! DEFINITION. The 23 commands of 30_encoding.md R57, and the host's transactions (10_state.md R23). -/

namespace Sys2Proof

/-- One constructor per row of the opcode map (30_encoding.md R57). Every operand but `MUMC`'s constant index is
implicit (R58). -/
inductive Instr where
  /-- 45_prng_system.md R142 -/
  | nop
  /-- 45_prng_system.md R143 -/
  | srst
  /-- 40_primitives.md R81 -/
  | mulw
  /-- 40_primitives.md R82 -/
  | mumx
  /-- 40_primitives.md R83 -/
  | muma
  /-- 40_primitives.md R84 -/
  | mulw128
  /-- 40_primitives.md R85 -/
  | mum128x
  /-- 40_primitives.md R86 -/
  | mum128a
  /-- 40_primitives.md R87 -/
  | vmum32
  /-- 40_primitives.md R88; `idx` is `v[11:8]`, all sixteen values legal (30_encoding.md R58) -/
  | mumc (idx : BitVec 4)
  /-- 41_block_tail_final.md R91 -/
  | hinit
  /-- 42_vector_layer.md R109 -/
  | vmix
  /-- 42_vector_layer.md R111 -/
  | vred
  /-- 41_block_tail_final.md R94 -/
  | bmix
  /-- 41_block_tail_final.md R97 -/
  | tmix
  /-- 41_block_tail_final.md R99 -/
  | hfin
  /-- 43_hash_drivers.md R116 -/
  | hash64
  /-- 43_hash_drivers.md R117 -/
  | vhash64
  /-- 44_mum512.md R131 -/
  | hash512
  /-- 45_prng_system.md R137 -/
  | pseed
  /-- 45_prng_system.md R138 -/
  | pnext
  /-- 45_prng_system.md R139 -/
  | pseed512
  /-- 45_prng_system.md R140 -/
  | pnext512
deriving DecidableEq, Repr

/-- What reaches the block from outside, one at a time and between commands. A command is a write to register 1
(10_state.md R27). -/
inductive HostEvent where
  /-- `HostWrite(n, v)` (10_state.md R23) -/
  | write (n : Fin 64) (v : Word)
  /-- `HostRead(n)` (10_state.md R23) -/
  | read (n : Fin 64)
  /-- the hard reset input (70_reset_and_hazards.md R170) -/
  | hardReset
  /-- the environment changes one address of the key space: `some b` makes it valid with content `b`, `none`
  makes it invalid (20_memory.md R42, R51, 70_reset_and_hazards.md R177) -/
  | setKey (a : Word) (b : Option Byte)
deriving DecidableEq, Repr

end Sys2Proof
end

