-- ==== Sys2Proof/Config.lean ====
section
/-! DEFINITION. The configuration record `Cfg` of 10_state.md R11 to R15 and R21, its named fold profiles, the
test profile TP0, and the one free value of the model. -/

namespace Sys2Proof

/-- One `FOLDCFG` bit (10_state.md R15): `XOR` is 0, `ADD` is 1. -/
inductive Fold where
  | xor
  | add
deriving DecidableEq, Repr

/-- The nine fold and accumulate sites (10_state.md R15), in the order of the `CFG` bits 4 to 12 (R21). -/
structure FoldCfg where
  fInit : Fold
  fBlk  : Fold
  aBlk  : Fold
  fTail : Fold
  aTail : Fold
  fVred : Fold
  aVred : Fold
  fFin  : Fold
  f512  : Fold
deriving DecidableEq, Repr

/-- Physical SIMD width `VLEN` (00_scope.md R3), as `CFG.VLENC` reports it (10_state.md R21). The reserved code 3
has no constructor: it is "never reported". -/
inductive VLen where
  | scalar
  | simd128
  | simd256
deriving DecidableEq, Repr

/-- The configuration record (00_scope.md R3, 10_state.md R11): hard-wired constants and implementation
parameters. No command reads it from memory or writes it (R12). -/
structure Cfg where
  /-- `C[0..15]`: 0 to 7 block mixer, 8 to 15 tail mixer. -/
  c           : Vector Word 16
  /-- `CVR[0..3]`: vector reduction. -/
  cvr         : Vector Word 4
  cInit       : Word
  cLen        : Word
  cFinal      : Word
  seedDefault : Word
  k512i       : Vector DWord 4
  k512l       : Vector DWord 4
  k512b       : Vector DWord 4
  k512t       : Vector DWord 4
  k512f       : Vector DWord 4
  fold        : FoldCfg
  /-- `LMAX`, D0's `implementation_max_length`. -/
  lmax        : Word
  vlen        : VLen
  /-- `STRICT_ALIGN`. -/
  salign      : Bool
  /-- `NATIVE_MUL`. -/
  nmul        : Bool
deriving DecidableEq, Repr

namespace Config

/-- FP_DOC, the default profile (10_state.md R15, 90_conflicts.md C1). -/
def fpDoc : FoldCfg :=
  { fInit := .xor, fBlk := .add, aBlk := .xor, fTail := .xor, aTail := .xor,
    fVred := .xor, aVred := .xor, fFin := .xor, f512 := .xor }

/-- FP_XOR (10_state.md R15). -/
def fpXor : FoldCfg := { fpDoc with fBlk := .xor }

/-- FP_ADD (10_state.md R15). -/
def fpAdd : FoldCfg :=
  { fInit := .add, fBlk := .add, aBlk := .add, fTail := .add, aTail := .add,
    fVred := .add, aVred := .add, fFin := .add, f512 := .add }

/-- The test profile TP0 (10_state.md R14) with the default fold profile FP_DOC (R15), the default `LMAX`
(92_eei_decisions.md D7) and the `VLENC = 2`, `SALIGN = 0`, `NMUL = 1` of the programs of 95_test_vectors.md.
DESIGN CHOICE, unsafe (log entry 2): the spec leaves the constants open and TP0 is its test profile; `State.reset`
is the reset state of a block built with it. Statements are made for every `Cfg`. -/
def tp0 : Cfg :=
  { c := #v[0x6a09e667f3bcc908, 0xbb67ae8584caa73b, 0x3c6ef372fe94f82b, 0xa54ff53a5f1d36f1,
            0x510e527fade682d1, 0x9b05688c2b3e6c1f, 0x1f83d9abfb41bd6b, 0x5be0cd19137e2179,
            0xcbbb9d5dc1059ed8, 0x629a292a367cd507, 0x9159015a3070dd17, 0x152fecd8f70e5939,
            0x67332667ffc00b31, 0x8eb44a8768581511, 0xdb0c2e0d64f98fa7, 0x47b5481dbefa4fa4]
    cvr := #v[0xae5f9156e7b6d99b, 0xcf6c85d39d1a1e15, 0x2f73477d6a4563ca, 0x6d1826cafd82e1ed]
    cInit := 0x8b43d4570a51b936
    cLen := 0xe360b596dc380c3f
    cFinal := 0x1c456002ce13e9f8
    seedDefault := 0x6f19633143a0af0e
    k512i := #v[0x0cc4a61194f81760d94ebeb1ab313933, 0x5815a7be0543c11c261dc1f2b8a998c8,
                0xa1513c69681ad6d470b7ed67fc9b5c42, 0x720dcdfd9dba5b4444f9363580e83d02]
    k512l := #v[0xca320b75e2b634f9b467369e08efd70e, 0x49c7d9bde4e071f734e0d42e61a33f99,
                0xc463a2fc42c92b5e87abb9f2087207ed, 0x27277f6d1a6f06beec3fc3f38a10ea02]
    k512b := #v[0x7420b49edc5a21ee610bebf29db2faf5, 0xe477359432dca729d1fd8a3396bdeee8,
                0x1b530c95f8b3def8092197f60194adc1, 0xeee52e4fb5f41185869d6342f6d22822]
    k512t := #v[0x21fba37bbcad59c311076689f6aff6b0, 0x75a9f91d5813e9e843ab9fb62162bb7f,
                0xd7cd8173f479197a86305019d3d95c9e, 0x379f513f856fc7a907fe00ff606fac41]
    k512f := #v[0x764ab8429c65817e66b651a8ab0e883b, 0xc3578c15393dbe7ba4b06be193b8ce0d,
                0x1e039f40ee65e7f5d2962a53c75de5c1, 0xa29bf2defe493534857b7bee690d3012]
    fold := fpDoc
    lmax := 0xffffffffffffffff
    vlen := .simd256
    salign := false
    nmul := true }

/-- The value a host read of a result register whose valid flag is 0 returns (10_state.md R24,
93_implementation_defined.md U6): unspecified, "possibly different on each read". A FREE VALUE (log entry 6): the
argument is the model's counter `State.freeCtr`, which each such read advances. -/
opaque unspecifiedRead : Nat → Word

end Config

end Sys2Proof
end

