-- ==== Sys2Proof/WellFormed.lean ====
section
/-! DEFINITION. Well-formedness: of an instruction (30_encoding.md R58) and of a configuration record
(10_state.md R13). -/

namespace Sys2Proof

/-- An instruction is well formed when its operands fit their fields. The one operand, `MUMC`'s `idx`, has the
width of its field and "all sixteen values are legal" (30_encoding.md R58), so every term is well formed. -/
def Instr.wf : Instr → Bool
  | .mumc idx => decide (idx.toNat < 16)
  | _ => true

/-- The number of one bits among bits `n − 1 … 0` of a natural number. -/
def oneBits (v : Nat) : Nat → Nat
  | 0 => 0
  | n + 1 => (v.testBit n).toNat + oneBits v n

/-- 10_state.md R13 (a) as 92_eei_decisions.md D5 makes it checkable: 24 to 40 one bits of 64. -/
def nearUniform (w : Word) : Bool := decide (24 ≤ oneBits w.toNat 64) && decide (oneBits w.toNat 64 ≤ 40)

/-- R13 (a) for a 128-bit constant: both halves (log entry 13). -/
def nearUniform128 (d : DWord) : Bool :=
  nearUniform (d.extractLsb' 0 64) && nearUniform (d.extractLsb' 64 64)

/-- No two entries are equal. -/
def allDifferent : List Word → Bool
  | [] => true
  | w :: ws => ws.all (fun x => decide (x ≠ w)) && allDifferent ws

/-- The 64-bit constants that 10_state.md R13 asks to be pairwise different. -/
def Cfg.tableConsts (c : Cfg) : List Word := c.c.toList ++ c.cvr.toList ++ [c.cInit, c.cLen, c.cFinal]

/-- The twenty 128-bit constants of `HASH512`. -/
def Cfg.wideConsts (c : Cfg) : List DWord :=
  c.k512i.toList ++ c.k512l.toList ++ c.k512b.toList ++ c.k512t.toList ++ c.k512f.toList

/-- R13 (a). -/
def Cfg.uniformConsts (c : Cfg) : Bool :=
  (c.seedDefault :: c.tableConsts).all nearUniform && c.wideConsts.all nearUniform128

/-- R13 (b): the driver constants coincide with no block-mixer constant. -/
def Cfg.driverConstsApart (c : Cfg) : Bool :=
  (c.c.toList.take 8).all fun k => decide (k ≠ c.cInit) && decide (k ≠ c.cLen) && decide (k ≠ c.cFinal)

/-- R13 (c): the default seed is not zero. -/
def Cfg.seedNonZero (c : Cfg) : Bool := decide (c.seedDefault ≠ 0)

/-- R13 (d): all table, reduction and driver constants are pairwise different. -/
def Cfg.constsApart (c : Cfg) : Bool := allDifferent c.tableConsts

/-- 10_state.md R13: the record is a MUMCORE configuration. -/
def Cfg.wf (c : Cfg) : Bool := c.uniformConsts && c.driverConstsApart && c.seedNonZero && c.constsApart

end Sys2Proof
end

