-- ==== Sys2Proof/Decode.lean ====
section
/-! DEFINITION. The decoder of 30_encoding.md R56 to R60, total on every 64-bit value and rejecting by name, and
the encoder. -/

namespace Sys2Proof

/-- Why a value written to `CMD` is illegal (30_encoding.md R59 (a), (b), (c)). -/
inductive Illegal where
  /-- (a) `v[63:12] ≠ 0` -/
  | upperBits
  /-- (b) `v[7:0]` is none of the 23 opcodes -/
  | unknownOpcode
  /-- (c) `v[11:8] ≠ 0` on a command that takes no index -/
  | operandOnF0
deriving DecidableEq, Repr

/-- `v[63:12]`. -/
def cmdUpper (v : Word) : BitVec 52 := v.extractLsb' 12 52

/-- `idx = v[11:8]`. -/
def cmdIdx (v : Word) : BitVec 4 := v.extractLsb' 8 4

/-- `opc = v[7:0]`. -/
def cmdOpc (v : Word) : BitVec 8 := v.extractLsb' 0 8

/-- The commands of format F0 by opcode (30_encoding.md R57). -/
def f0Command (opc : BitVec 8) : Option Instr :=
  match opc.toNat with
  | 0x00 => some .nop
  | 0x01 => some .srst
  | 0x10 => some .mulw
  | 0x11 => some .mumx
  | 0x12 => some .muma
  | 0x14 => some .mulw128
  | 0x15 => some .mum128x
  | 0x16 => some .mum128a
  | 0x18 => some .vmum32
  | 0x30 => some .hinit
  | 0x31 => some .vmix
  | 0x32 => some .vred
  | 0x33 => some .bmix
  | 0x34 => some .tmix
  | 0x35 => some .hfin
  | 0x40 => some .hash64
  | 0x41 => some .vhash64
  | 0x44 => some .hash512
  | 0x50 => some .pseed
  | 0x51 => some .pnext
  | 0x54 => some .pseed512
  | 0x55 => some .pnext512
  | _ => none

/-- 30_encoding.md R59: decode the value written to `CMD`. -/
def decode (v : Word) : Except Illegal Instr :=
  if cmdUpper v ≠ 0 then .error .upperBits
  else if cmdOpc v = 0x20 then .ok (.mumc (cmdIdx v))
  else match f0Command (cmdOpc v) with
    | none => .error .unknownOpcode
    | some i => if cmdIdx v ≠ 0 then .error .operandOnF0 else .ok i

/-- The `opc` byte of an instruction (30_encoding.md R57). -/
def Instr.opc : Instr → BitVec 8
  | .nop => 0x00
  | .srst => 0x01
  | .mulw => 0x10
  | .mumx => 0x11
  | .muma => 0x12
  | .mulw128 => 0x14
  | .mum128x => 0x15
  | .mum128a => 0x16
  | .vmum32 => 0x18
  | .mumc _ => 0x20
  | .hinit => 0x30
  | .vmix => 0x31
  | .vred => 0x32
  | .bmix => 0x33
  | .tmix => 0x34
  | .hfin => 0x35
  | .hash64 => 0x40
  | .vhash64 => 0x41
  | .hash512 => 0x44
  | .pseed => 0x50
  | .pnext => 0x51
  | .pseed512 => 0x54
  | .pnext512 => 0x55

/-- The `idx` field of an instruction: zero in format F0 (30_encoding.md R56). -/
def Instr.idxField : Instr → BitVec 4
  | .mumc idx => idx
  | _ => 0

/-- The 64-bit value whose write to `CMD` is the instruction (30_encoding.md R56, R57). -/
def encode (i : Instr) : Word := ((0 : BitVec 52) ++ i.idxField) ++ i.opc

/-- The decoder's answer on the low `nbits` bits of `w`, every other bit of the command value zero. -/
def decodeTableWord (nbits w : Nat) : Option Instr :=
  if w % 2 ^ nbits < 2 ^ 64 then (decode (BitVec.ofNat 64 (w % 2 ^ nbits))).toOption else none

end Sys2Proof
end

