-- ==== Sys2Proof/Machine/Arith.lean ====
section
/-! DEFINITION. The arithmetic functions of 40_primitives.md part A (R70 to R80), the byte order of 20_memory.md R41
and 10_state.md R32, and the slices of 00_scope.md R8. -/

namespace Sys2Proof.Machine

/-- `hi64(p) = p[127:64]` (00_scope.md R8). -/
def hi64 (p : DWord) : Word := p.extractLsb' 64 64

/-- `lo64(p) = p[63:0]`. -/
def lo64 (p : DWord) : Word := p.extractLsb' 0 64

/-- `hi128(p) = p[255:128]`. -/
def hi128 (p : QWord) : DWord := p.extractLsb' 128 128

/-- `lo128(p) = p[127:0]`. -/
def lo128 (p : QWord) : DWord := p.extractLsb' 0 128

/-- `hi32(p) = p[63:32]`. -/
def hi32 (p : Word) : BitVec 32 := p.extractLsb' 32 32

/-- `lo32(p) = p[31:0]`. -/
def lo32 (p : Word) : BitVec 32 := p.extractLsb' 0 32

/-- 40_primitives.md R70: the exact unsigned product. -/
def mulw64 (x y : Word) : DWord := BitVec.ofNat 128 (x.toNat * y.toNat)

/-- 40_primitives.md R71: the product of an implementation without a 64×64 array (`CFG.NMUL = 0`), from the four
32×32→64 partial products. Unobservable: it is the same function as `mulw64`. -/
def mulw64Synth (x y : Word) : DWord :=
  let xl := (lo32 x).toNat
  let xh := (hi32 x).toNat
  let yl := (lo32 y).toNat
  let yh := (hi32 y).toNat
  let ll : Word := BitVec.ofNat 64 (xl * yl)
  let lh : Word := BitVec.ofNat 64 (xl * yh)
  let hl : Word := BitVec.ofNat 64 (xh * yl)
  let hh : Word := BitVec.ofNat 64 (xh * yh)
  let mid : Word := (hi32 ll).setWidth 64 + (lo32 lh).setWidth 64 + (lo32 hl).setWidth 64
  let lo : Word := lo32 mid ++ lo32 ll
  let hi : Word := hh + (hi32 lh).setWidth 64 + (hi32 hl).setWidth 64 + (hi32 mid).setWidth 64
  hi ++ lo

/-- 40_primitives.md R72. -/
def mumx (x y : Word) : Word := hi64 (mulw64 x y) ^^^ lo64 (mulw64 x y)

/-- 40_primitives.md R73: the carry out of bit 63 is discarded. -/
def muma (x y : Word) : Word := hi64 (mulw64 x y) + lo64 (mulw64 x y)

/-- 40_primitives.md R74. -/
def mum (f : Fold) (x y : Word) : Word :=
  match f with
  | .xor => mumx x y
  | .add => muma x y

/-- 40_primitives.md R75. -/
def acc (a : Fold) (s m : Word) : Word :=
  match a with
  | .xor => s ^^^ m
  | .add => s + m

/-- 40_primitives.md R76: the exact unsigned product. -/
def mulw128 (x y : DWord) : QWord := BitVec.ofNat 256 (x.toNat * y.toNat)

/-- 40_primitives.md R77: the product from four 64×64→128 multiplies, summed exactly. Unobservable. -/
def mulw128Synth (x y : DWord) : QWord :=
  let ll := (mulw64 (lo64 x) (lo64 y)).toNat
  let lh := (mulw64 (lo64 x) (hi64 y)).toNat
  let hl := (mulw64 (hi64 x) (lo64 y)).toNat
  let hh := (mulw64 (hi64 x) (hi64 y)).toNat
  BitVec.ofNat 256 (ll + (lh + hl) * 2 ^ 64 + hh * 2 ^ 128)

/-- 40_primitives.md R78. -/
def mum128x (x y : DWord) : DWord := hi128 (mulw128 x y) ^^^ lo128 (mulw128 x y)

/-- 40_primitives.md R79: one 128-bit addition, the carry out of bit 127 is discarded. -/
def mum128a (x y : DWord) : DWord := hi128 (mulw128 x y) + lo128 (mulw128 x y)

/-- `MUM128(f, x, y)` of 40_primitives.md R79. -/
def mum128 (f : Fold) (x y : DWord) : DWord :=
  match f with
  | .xor => mum128x x y
  | .add => mum128a x y

/-- 40_primitives.md R80: the low halves multiplied, the product's halves xored and zero-extended. -/
def mum32 (a b : Word) : Word :=
  let p : Word := BitVec.ofNat 64 ((lo32 a).toNat * (lo32 b).toNat)
  (hi32 p ^^^ lo32 p).setWidth 64

/-- `LE(b[0..n−1]) = Σ b[i]·2^(8i)` as an exact number (20_memory.md R41). -/
def le : List Byte → Nat
  | [] => 0
  | b :: bs => b.toNat + 256 * le bs

/-- `LE` of up to eight bytes as a 64-bit word. -/
def leWord (bs : List Byte) : Word := BitVec.ofNat 64 (le bs)

/-- `LE` of up to sixteen bytes as a 128-bit word. -/
def leDWord (bs : List Byte) : DWord := BitVec.ofNat 128 (le bs)

/-- `w[j] = LE(b[8j .. 8j+7])` for `j = 0 … n−1`: the first `n` words of a byte list. -/
def leWords : Nat → List Byte → List Word
  | 0, _ => []
  | n + 1, bs => leWord (bs.take 8) :: leWords n (bs.drop 8)

/-- Byte `k` of a register, bits `[8k+7 : 8k]` (10_state.md R32). -/
def byteLane (v : Word) (k : Nat) : Byte := v.extractLsb' (8 * k) 8

/-- The eight bytes of a value, least significant first (10_state.md R32, 45_prng_system.md R136): the inverse of
`LE`. -/
def leBytes (v : Word) : List Byte :=
  [byteLane v 0, byteLane v 1, byteLane v 2, byteLane v 3, byteLane v 4, byteLane v 5, byteLane v 6, byteLane v 7]

/-- The bytes of several limbs, limb 0 first (45_prng_system.md R140, 10_state.md R32). -/
def limbBytes : List Word → List Byte
  | [] => []
  | w :: ws => leBytes w ++ limbBytes ws

end Sys2Proof.Machine
end

