-- ==== Sys2Proof/Machine/Mixer.lean ====
section
/-! DEFINITION. The steps of the 64-bit hash as pure functions of the configuration: initialisation, block mixer,
tail mixer, finalisation (41_block_tail_final.md R90, R92, R95, R98), the vector layer (42_vector_layer.md R106,
R107, R110), and the driver `H64` (43_hash_drivers.md R115). -/

namespace Sys2Proof.Machine

/-- 41_block_tail_final.md R90. -/
def initState (c : Cfg) (seed len : Word) : Word := mum c.fold.fInit (seed ^^^ c.cInit) (len ^^^ c.cLen)

/-- Accumulate, one after another, the products of key words and constants: the loop that R92, R95 and R110
share. -/
def mixTerms (f a : Fold) (s : Word) (terms : List (Word × Word)) : Word :=
  terms.foldl (fun s t => acc a s (mum f t.1 t.2)) s

/-- `C[0..7]` (10_state.md R11). -/
def blockConsts (c : Cfg) : List Word := c.c.toList.take 8

/-- `C[8..15]` (10_state.md R11). -/
def tailConsts (c : Cfg) : List Word := c.c.toList.drop 8

/-- 41_block_tail_final.md R92: word `j` meets `C[j]`. -/
def blockMix (c : Cfg) (s : Word) (w : List Word) : Word :=
  mixTerms c.fold.fBlk c.fold.aBlk s (w.zip (blockConsts c))

/-- The 8-byte groups of a tail (41_block_tail_final.md R95, R96): `R div 8` full words, then, when
`R mod 8 ≠ 0`, one partial word of the bytes that are left, zero-extended. -/
def tailGroups (t : List Byte) : List Word :=
  leWords (t.length / 8) t ++
    (if t.length % 8 ≠ 0 then [leWord (t.drop (8 * (t.length / 8)))] else [])

/-- 41_block_tail_final.md R95: the `i`-th group, full or partial, meets `C[8 + i]`. -/
def tailMix (c : Cfg) (s : Word) (t : List Byte) : Word :=
  mixTerms c.fold.fTail c.fold.aTail s ((tailGroups t).zip (tailConsts c))

/-- 41_block_tail_final.md R98. -/
def finalMix (c : Cfg) (s : Word) : Word := mum c.fold.fFin s c.cFinal

/-- One term of 42_vector_layer.md R106: `MUM32(t, t >> 32)` with `t = w ⊕ C[m]`. -/
def vecTerm (w k : Word) : Word := mum32 (w ^^^ k) ((w ^^^ k) >>> 32)

/-- Xor a term into one lane of the vector state. -/
def xorLane (vs : Vector Word 4) (lane : Fin 4) (t : Word) : Vector Word 4 := vs.set lane (vs[lane] ^^^ t)

/-- 42_vector_layer.md R106: word `m` of a vector block goes to lane `m mod 4`. The first argument counts `m`. -/
def vecTerms (m : Nat) (vs : Vector Word 4) : List (Word × Word) → Vector Word 4
  | [] => vs
  | (w, k) :: r => vecTerms (m + 1) (xorLane vs (Fin.ofNat 4 m) (vecTerm w k)) r

/-- 42_vector_layer.md R106, the scalar fallback's order: sixteen words one at a time. -/
def vecBlock (c : Cfg) (vs : Vector Word 4) (w : List Word) : Vector Word 4 :=
  vecTerms 0 vs (w.zip c.c.toList)

/-- One 256-bit vector step of 42_vector_layer.md R107: words `4g … 4g+3` into lanes 0 to 3 at once. -/
def vecStep256 (vs : Vector Word 4) (t0 t1 t2 t3 : Word) : Vector Word 4 :=
  #v[vs[0] ^^^ t0, vs[1] ^^^ t1, vs[2] ^^^ t2, vs[3] ^^^ t3]

/-- 42_vector_layer.md R107: a vector block on 256-bit SIMD, four steps. -/
def vecTerms256 (vs : Vector Word 4) : List (Word × Word) → Vector Word 4
  | p0 :: p1 :: p2 :: p3 :: r =>
    vecTerms256 (vecStep256 vs (vecTerm p0.1 p0.2) (vecTerm p1.1 p1.2) (vecTerm p2.1 p2.2) (vecTerm p3.1 p3.2)) r
  | _ => vs

/-- 42_vector_layer.md R107: one register pair of 128-bit SIMD, lanes `(0, 1)` and lanes `(2, 3)`; each step takes
two words into one register, eight steps a block. -/
def vecTerms128 (a b : Word × Word) : List (Word × Word) → (Word × Word) × (Word × Word)
  | p0 :: p1 :: p2 :: p3 :: r =>
    vecTerms128 (a.1 ^^^ vecTerm p0.1 p0.2, a.2 ^^^ vecTerm p1.1 p1.2)
      (b.1 ^^^ vecTerm p2.1 p2.2, b.2 ^^^ vecTerm p3.1 p3.2) r
  | _ => (a, b)

/-- 42_vector_layer.md R110, lane order 0 to 3. -/
def vecReduce (c : Cfg) (s : Word) (vs : Vector Word 4) : Word :=
  mixTerms c.fold.fVred c.fold.aVred s (vs.toList.zip c.cvr.toList)

/-- `n` vector blocks from the front of a byte list (43_hash_drivers.md R115). -/
def vecLoop (c : Cfg) : Nat → Vector Word 4 → List Byte → Vector Word 4
  | 0, vs, _ => vs
  | n + 1, vs, bs => vecLoop c n (vecBlock c vs (leWords 16 (bs.take 128))) (bs.drop 128)

/-- `n` blocks from the front of a byte list (43_hash_drivers.md R115). -/
def blockLoop (c : Cfg) : Nat → Word → List Byte → Word
  | 0, s, _ => s
  | n + 1, s, bs => blockLoop c n (blockMix c s (leWords 8 (bs.take 64))) (bs.drop 64)

/-- How many bytes the vector layer consumes of a key of `len` bytes (42_vector_layer.md R105): `V`. -/
def vecExtent (len : Nat) : Nat := if 512 ≤ len then 128 * (len / 128) else 0

/-- The vector state a key leaves behind (42_vector_layer.md R106, R112): zero below the gate. -/
def vecState (c : Cfg) (key : List Byte) : Vector Word 4 :=
  vecLoop c (vecExtent key.length / 128) (Vector.replicate 4 0) key

/-- 43_hash_drivers.md R115, the pure function `H64`. -/
def h64 (c : Cfg) (key : List Byte) (seed : Word) : Word :=
  let st0 := initState c seed (BitVec.ofNat 64 key.length)
  let st1 := if 512 ≤ key.length then vecReduce c st0 (vecState c key) else st0
  let rest := key.drop (vecExtent key.length)
  let st2 := blockLoop c (rest.length / 64) st1 rest
  finalMix c (tailMix c st2 (rest.drop (64 * (rest.length / 64))))

/-- 45_prng_system.md R136: `HP(x) = H64(the eight bytes of x, 8, SEED_DEFAULT)`. -/
def hp (c : Cfg) (x : Word) : Word := h64 c (leBytes x) c.seedDefault

end Sys2Proof.Machine
end

