-- ==== Sys2Proof/Machine/Mum512.lean ====
section
/-! DEFINITION. The 512-bit hash as a pure function of the configuration (44_mum512.md R125 to R130). -/

namespace Sys2Proof.Machine

/-- The 128-bit views of eight limbs (44_mum512.md R125): `U[q] = limb[2q+1] ‖ limb[2q]`. -/
def views (l : Vector Word 8) : Vector DWord 4 := #v[l[1] ++ l[0], l[3] ++ l[2], l[5] ++ l[4], l[7] ++ l[6]]

/-- The limbs of four views, low half of view 0 first (44_mum512.md R130). -/
def limbs (u : Vector DWord 4) : Vector Word 8 :=
  #v[lo64 u[0], hi64 u[0], lo64 u[1], hi64 u[1], lo64 u[2], hi64 u[2], lo64 u[3], hi64 u[3]]

/-- 44_mum512.md R126: all four products read the old views; the accumulate is always xor. -/
def round512 (f : Fold) (u w k : Vector DWord 4) : Vector DWord 4 :=
  #v[u[0] ^^^ mum128 f (u[0] ^^^ w[0]) (u[1] ^^^ k[0]),
     u[1] ^^^ mum128 f (u[1] ^^^ w[1]) (u[2] ^^^ k[1]),
     u[2] ^^^ mum128 f (u[2] ^^^ w[2]) (u[3] ^^^ k[2]),
     u[3] ^^^ mum128 f (u[3] ^^^ w[3]) (u[0] ^^^ k[3])]

/-- 44_mum512.md R127: the length enters every view, zero-extended. -/
def init512 (c : Cfg) (len : Word) (seed : Vector Word 8) : Vector DWord 4 :=
  let sv := views seed
  let l : DWord := len.setWidth 128
  #v[mum128 c.fold.f512 (sv[0] ^^^ c.k512i[0]) (l ^^^ c.k512l[0]),
     mum128 c.fold.f512 (sv[1] ^^^ c.k512i[1]) (l ^^^ c.k512l[1]),
     mum128 c.fold.f512 (sv[2] ^^^ c.k512i[2]) (l ^^^ c.k512l[2]),
     mum128 c.fold.f512 (sv[3] ^^^ c.k512i[3]) (l ^^^ c.k512l[3])]

/-- `W[q] = LE(b[16q .. 16q+15])` for the four 16-byte words of a 64-byte block (44_mum512.md R128). -/
def blockWords512 (bs : List Byte) : Vector DWord 4 :=
  #v[leDWord (bs.take 16), leDWord ((bs.drop 16).take 16), leDWord ((bs.drop 32).take 16),
     leDWord ((bs.drop 48).take 16)]

/-- The full blocks of `H512` (44_mum512.md R128). -/
def blockLoop512 (c : Cfg) : Nat → Vector DWord 4 → List Byte → Vector DWord 4
  | 0, u, _ => u
  | n + 1, u, bs => blockLoop512 c n (round512 c.fold.f512 u (blockWords512 (bs.take 64)) c.k512b) (bs.drop 64)

/-- The residual bytes extended to 64 with zero bytes made inside the core (44_mum512.md R129). -/
def pad512 (bs : List Byte) : List Byte := bs ++ List.replicate (64 - bs.length) 0

/-- 44_mum512.md R128, the pure function `H512`. -/
def h512 (c : Cfg) (key : List Byte) (seed : Vector Word 8) : Vector Word 8 :=
  let u0 := init512 c (BitVec.ofNat 64 key.length) seed
  let u1 := blockLoop512 c (key.length / 64) u0 key
  let tail := key.drop (64 * (key.length / 64))
  let u2 := if tail.length ≠ 0 then round512 c.fold.f512 u1 (blockWords512 (pad512 tail)) c.k512t else u1
  limbs (round512 c.fold.f512 u2 (Vector.replicate 4 0) c.k512f)

/-- The key that `PNEXT512` hashes (45_prng_system.md R140): the counter is xored into limb 0. -/
def prngKey512 (x : Vector Word 8) (ctr : Word) : List Byte := limbBytes (x.set 0 (x[0] ^^^ ctr)).toList

/-- `H512` of that key under eight copies of `SEED_DEFAULT` (45_prng_system.md R140). -/
def hp512 (c : Cfg) (x : Vector Word 8) (ctr : Word) : Vector Word 8 :=
  h512 c (prngKey512 x ctr) (Vector.replicate 8 c.seedDefault)

end Sys2Proof.Machine
end

