-- ==== Sys2Proof/Machine/State.lean ====
section
/-! DEFINITION. The state of one MUMCORE instance with what rides beside it, the state after reset, and the reasons
a step can stop. Plain data only. -/

namespace Sys2Proof.Machine

/-- The values of `STATUS.ERR` (60_exceptions.md R151). Codes 6 to 15 are reserved and never written. -/
inductive ErrCode where
  | eNone
  | eIllCmd
  | eSeq
  | eRange
  | eKeyFault
  | eUnseeded
deriving DecidableEq, Repr

/-- The phase `PH` (10_state.md R29). -/
inductive Phase where
  | idle
  | vec
  | blk
  | fin
deriving DecidableEq, Repr

/-- The key space (20_memory.md R40, R42): the addresses for which `KeyValid` holds, each with its `KeyByte`, in
strictly rising order. An address that is not listed is not valid (log entry 3). -/
abbrev Memory := List Host.Cell

/-- Everything 10_state.md R10 gives one instance, the parameters of the step function that the spec keeps apart
from the state (`cfg`, `mem`: log entries 1 and 3), and four fields of the model's own (`inbox`, `hostReads`,
`keyReads`, `freeCtr`: log entries 4 to 7). An `Option` is the spec's type `T?`; `none` is `invalid`
(00_scope.md R8). -/
structure State where
  /-- `STATUS.ERR` (R25) -/
  err       : ErrCode
  /-- `ERRINFO` (R26) -/
  errinfo   : Word
  /-- `ERRADDR` (R26) -/
  erraddr   : Word
  /-- `SEED` (R18) -/
  seed      : Word
  /-- `KBASE` (R19) -/
  kbase     : Word
  /-- `KLEN` (R19) -/
  klen      : Word
  /-- `OPA[0..3]` (R16) -/
  opa       : Vector Word 4
  /-- `OPB[0..3]` (R16) -/
  opb       : Vector Word 4
  /-- `RES[0..3]`, valid exactly when `STATUS.RV` is 1 (R17) -/
  res       : Option (Vector Word 4)
  /-- `DIGEST`, valid exactly when `DV` is 1 (R20) -/
  digest    : Option Word
  /-- `DIGEST512[0..7]`, valid exactly when `D512V` is 1 (R20) -/
  digest512 : Option (Vector Word 8)
  /-- `POUT`, valid exactly when `PV` is 1 (R20) -/
  pout      : Option Word
  /-- `POUT512[0..7]`, valid exactly when `P512V` is 1 (R20) -/
  pout512   : Option (Vector Word 8)
  /-- `SEED512[0..7]` (R20) -/
  seed512   : Vector Word 8
  /-- `ST`, hidden (R28) -/
  st        : Option Word
  /-- `VS[0..3]`, hidden (R28) -/
  vs        : Vector Word 4
  /-- `ST512[0..7]`, hidden; it "holds nothing between commands" (R28; log entry 10) -/
  st512     : Option (Vector Word 8)
  /-- `PH`, hidden (R29) -/
  ph        : Phase
  /-- `CUR`, hidden (R29) -/
  cur       : Word
  /-- `LBASE`, hidden (R29) -/
  lbase     : Word
  /-- `LLEN`, hidden (R29) -/
  llen      : Word
  /-- `PSTATE`, hidden, valid exactly when `PSD` is 1 (R30) -/
  pstate    : Option Word
  /-- `PCTR`, hidden (R30) -/
  pctr      : Word
  /-- `PSTATE512[0..7]`, hidden, valid exactly when `PSD512` is 1 (R30) -/
  pstate512 : Option (Vector Word 8)
  /-- `PCTR512`, hidden (R30) -/
  pctr512   : Word
  /-- the configuration record (R11): a parameter of the step function, changed by nothing -/
  cfg       : Cfg
  /-- the key space (20_memory.md R42): a parameter of the step function, changed only by the environment -/
  mem       : Memory
  /-- model's own: the host's transactions not yet performed, oldest first -/
  inbox     : List HostEvent
  /-- model's own: what host reads returned, newest first -/
  hostReads : List (Fin 64 × Word)
  /-- model's own: the event history of 20_memory.md R45, the key addresses read, oldest first -/
  keyReads  : List Nat
  /-- model's own: which unspecified value comes next (10_state.md R24) -/
  freeCtr   : Nat
deriving DecidableEq, Repr

/-- Why the machine stops. -/
inductive Fault where
  /-- Raised by `VRED`, `BMIX`, `TMIX`, `HFIN` when the phase says a hash is open and `ST` is `invalid`. No run
  reaches such a state (41_block_tail_final.md R101). Safe: the model stops where the spec has no rule
  (log entry 11). -/
  | stateDestroyed
deriving DecidableEq, Repr

/-- Why a step gives an instruction no meaning. -/
inductive Refusal where
  /-- Raised by an arm of `exec` whose instruction has no meaning yet; no arm raises it. Safe. -/
  | notModelled (mnemonic : String)
deriving DecidableEq, Repr

/-- The reset values of 10_state.md R33 for a block built with `cfg`, with no valid key address, no transaction
issued and nothing recorded. -/
def State.resetWith (cfg : Cfg) : State :=
  { err := .eNone, errinfo := 0, erraddr := 0,
    seed := cfg.seedDefault, kbase := 0, klen := 0,
    opa := Vector.replicate 4 0, opb := Vector.replicate 4 0,
    res := none, digest := none, digest512 := none, pout := none, pout512 := none,
    seed512 := Vector.replicate 8 cfg.seedDefault,
    st := none, vs := Vector.replicate 4 0, st512 := none,
    ph := .idle, cur := 0, lbase := 0, llen := 0,
    pstate := none, pctr := 0, pstate512 := none, pctr512 := 0,
    cfg := cfg, mem := [], inbox := [], hostReads := [], keyReads := [], freeCtr := 0 }

/-- The machine right after reset (10_state.md R33), built with the spec's test profile (log entry 2). -/
def State.reset : State := State.resetWith Config.tp0

end Sys2Proof.Machine
end

