-- ==== Sys2Proof/Machine/Operands.lean ====
section
/-! DEFINITION. Where the operands of the commands come from: the operand file (10_state.md R16), the constant an
index selects (30_encoding.md R58, 40_primitives.md R88), the fold of its site, what is left of an open key
(10_state.md R29), and the range check on a key (20_memory.md R47). -/

namespace Sys2Proof.Machine

/-- The 128-bit operand `A = OPA[1] ‖ OPA[0]` (10_state.md R16). -/
def operandA (s : State) : DWord := s.opa[1] ++ s.opa[0]

/-- The 128-bit operand `B = OPB[1] ‖ OPB[0]` (10_state.md R16). -/
def operandB (s : State) : DWord := s.opb[1] ++ s.opb[0]

/-- `C[idx]` (30_encoding.md R58: used as it stands). -/
def constAt (c : Cfg) (idx : BitVec 4) : Word := c.c[idx.toFin]

/-- The fold of the site that `C[idx]` belongs to (40_primitives.md R88). -/
def foldAt (c : Cfg) (idx : BitVec 4) : Fold := if idx.toNat ≤ 7 then c.fold.fBlk else c.fold.fTail

/-- `LLEN − CUR` (10_state.md R29: `0 ≤ CUR ≤ LLEN`; log entry 18). -/
def State.left (s : State) : Nat := s.llen.toNat - s.cur.toNat

/-- The address of the next unread key byte, `LBASE + CUR`, without wrap-around (20_memory.md R47). -/
def State.nextKey (s : State) : Nat := s.lbase.toNat + s.cur.toNat

/-- 20_memory.md R47: `KLEN ≤ LMAX` and `KBASE + KLEN ≤ 2^64` as integers. -/
def rangeOk (s : State) : Bool :=
  decide (s.klen.toNat ≤ s.cfg.lmax.toNat) && decide (s.kbase.toNat + s.klen.toNat ≤ 2 ^ 64)

end Sys2Proof.Machine
end

