-- ==== Sys2Proof/Machine/Ops.lean ====
section
/-! DEFINITION. The shared operations over the key space and the registers: reading and changing the key space
(20_memory.md R42), error entry and reset (60_exceptions.md R152, R157, 10_state.md R33), the frame every command runs
in (60_exceptions.md R153, R154), and the named register updates of the commands. -/

namespace Sys2Proof.Machine

/-! ### Key space -/

/-- `KeyByte(a)` where `KeyValid(a)`, else nothing (20_memory.md R42; log entry 3: an unlisted address is not
valid). -/
def Memory.read : Memory → Nat → Option Byte
  | [], _ => none
  | (x, b) :: m, a => if a = x then some b else Memory.read m a

/-- Make an address valid with the given content, keeping the addresses strictly rising. -/
def Memory.put : Memory → Nat → Byte → Memory
  | [], a, b => [(a, b)]
  | (x, c) :: m, a, b =>
    if a < x then (a, b) :: (x, c) :: m
    else if a = x then (a, b) :: m
    else (x, c) :: Memory.put m a b

/-- Make an address invalid: its entry goes. -/
def Memory.drop : Memory → Nat → Memory
  | [], _ => []
  | (x, c) :: m, a => if a = x then Memory.drop m a else (x, c) :: Memory.drop m a

/-- The environment's change of one address (`HostEvent.setKey`). -/
def Memory.set (m : Memory) (a : Nat) : Option Byte → Memory
  | some b => Memory.put m a b
  | none => Memory.drop m a

/-- The addresses are strictly rising. -/
def Memory.rising : Memory → Bool
  | [] => true
  | (x, _) :: m => m.all (fun c => decide (x < c.1)) && Memory.rising m

/-- The canonical form: strictly rising addresses of the 64-bit key space (20_memory.md R40). An unlisted address
reads as no value, so no entry can equal it. -/
def Memory.wf (m : Memory) : Bool := Memory.rising m && m.all (fun c => decide (c.1 < 2 ^ 64))

/-- The bytes at `a, a+1, …`, at most `n` of them, up to the first address that is not valid. -/
def Memory.readUpTo (m : Memory) : Nat → Nat → List Byte
  | _, 0 => []
  | a, n + 1 =>
    match Memory.read m a with
    | none => []
    | some b => b :: Memory.readUpTo m (a + 1) n

/-! ### The result of a command -/

/-- What a command's own rule leads to: it completes, it raises an error (with the state as it is when the raise
happens, and the faulting address), or it meets a state the spec has no rule for. -/
inductive Result where
  | done (s : State)
  | raise (e : ErrCode) (addr : Word) (s : State)
  | stuck (f : Fault)
deriving DecidableEq, Repr

/-- Go on with `k` where the first part completes; "none of the command's normal effects after the point of the
raise take place" (60_exceptions.md R152). -/
def andThen (r : Result) (k : State → Result) : Result :=
  match r with
  | .done s => k s
  | .raise e a s => .raise e a s
  | .stuck f => .stuck f

/-- Perform a part of a command `n` times, one after another. -/
def performTimes (body : State → Result) : Nat → State → Result
  | 0, s => .done s
  | n + 1, s => andThen (body s) (performTimes body n)

/-- Error entry (60_exceptions.md R152): `v` is the full value written to `CMD`; `ERRADDR` is the faulting address
for `E_KEYFAULT` and 0 for every other code (10_state.md R26); `ST` is destroyed and the sequence closed. -/
def raiseError (e : ErrCode) (v addr : Word) (s : State) : State :=
  { s with
    err := e, errinfo := v, erraddr := if e = .eKeyFault then addr else 0,
    st := none, ph := .idle }

/-- Recovery and reset (60_exceptions.md R157, 10_state.md R33, 70_reset_and_hazards.md R170): every piece of block
state takes its reset value; the configuration, the key space and the model's own records are not block state. -/
def State.resetBlock (s : State) : State :=
  { State.resetWith s.cfg with
    mem := s.mem, inbox := s.inbox, hostReads := s.hostReads, keyReads := s.keyReads, freeCtr := s.freeCtr }

/-- The frame every command but `SRST` runs in: ignored completely while `ERR ≠ 0` (60_exceptions.md R153), else
performed, an error it raises being recorded with the command's own word (R151, R152). A legal command has one
word, `encode i`, so that is the value that was written (log entry 12). -/
def runCommand (i : Instr) (body : State → Result) (s : State) : Host.Outcome State Fault Refusal :=
  if s.err ≠ .eNone then .next s
  else match body s with
    | .done t => .next t
    | .raise e a t => .next (raiseError e (encode i) a t)
    | .stuck f => .fault f

/-- A write of an illegal value to `CMD` (30_encoding.md R59): `E_ILLCMD`, unless an error is recorded already
(60_exceptions.md R153, R154). -/
def illegalCommand (v : Word) (s : State) : State :=
  if s.err ≠ .eNone then s else raiseError .eIllCmd v 0 s

/-- The raise of an error that carries no address. -/
def raise (e : ErrCode) (s : State) : Result := .raise e 0 s

/-- `E_RANGE` unless the key's range is legal (20_memory.md R47). -/
def checkRange (k : State → Result) (s : State) : Result := if rangeOk s then k s else raise .eRange s

/-- `E_SEQ` unless the stage command's precondition holds (41_block_tail_final.md R100). -/
def checkStage (legal : Bool) (k : State → Result) (s : State) : Result := if legal then k s else raise .eSeq s

/-- Record key reads in the event history (20_memory.md R45). -/
def State.logKeys (s : State) (as : List Nat) : State := { s with keyReads := s.keyReads ++ as }

/-- `MemRead(a, n)` (20_memory.md R42), then `k` on its bytes: ascending, each byte once (R45), `E_KEYFAULT` with the
lowest invalid address. The reads completed before a fault are in the history. -/
def withKey (a n : Nat) (k : List Byte → State → Result) (s : State) : Result :=
  let bs := Memory.readUpTo s.mem a n
  let t := s.logKeys (List.range' a bs.length)
  if bs.length = n then k bs t else .raise .eKeyFault (BitVec.ofNat 64 (a + bs.length)) t

/-- Read `ST` (10_state.md R28). Where the precondition of a stage command holds, `ST` is valid in every state a run
reaches (41_block_tail_final.md R101; log entry 11). -/
def withST (k : Word → State → Result) (s : State) : Result :=
  match s.st with
  | some x => k x s
  | none => .stuck .stateDestroyed

/-! ### Register updates -/

/-- Write the result file, all four entries at once, and set `RV` (10_state.md R17). -/
def State.setRes (s : State) (r : Vector Word 4) : State := { s with res := some r }

/-- A result of one limb, the other entries written with 0 (10_state.md R17). -/
def oneLimb (x : Word) : Vector Word 4 := #v[x, 0, 0, 0]

/-- A 128-bit result in `RES[1] ‖ RES[0]`, the other entries written with 0. -/
def twoLimbs (d : DWord) : Vector Word 4 := #v[lo64 d, hi64 d, 0, 0]

/-- A 256-bit result in `RES[3] ‖ … ‖ RES[0]` (40_primitives.md R84). -/
def fourLimbs (q : QWord) : Vector Word 4 :=
  #v[lo64 (lo128 q), hi64 (lo128 q), lo64 (hi128 q), hi64 (hi128 q)]

/-- The effects of `HINIT` after its range check (41_block_tail_final.md R91). -/
def State.openHash (s : State) : State :=
  { s with
    lbase := s.kbase, llen := s.klen, cur := 0, vs := Vector.replicate 4 0,
    st := some (initState s.cfg s.seed s.klen),
    ph := if 512 ≤ s.klen.toNat then .vec else .blk,
    digest := none }

/-- `VS` and `CUR` after a vector block (42_vector_layer.md R109). -/
def State.putVec (s : State) (vs : Vector Word 4) : State := { s with vs := vs, cur := s.cur + 128 }

/-- `ST` and `PH` after the vector reduction (42_vector_layer.md R111). -/
def State.endVec (s : State) (x : Word) : State := { s with st := some x, ph := .blk }

/-- `ST` and `CUR` after a block (41_block_tail_final.md R94). -/
def State.putBlock (s : State) (x : Word) : State := { s with st := some x, cur := s.cur + 64 }

/-- `ST`, `CUR` and `PH` after the tail (41_block_tail_final.md R97). -/
def State.putTail (s : State) (x : Word) : State := { s with st := some x, cur := s.llen, ph := .fin }

/-- `DIGEST`, `DV`, `ST` and `PH` after finalisation (41_block_tail_final.md R99). -/
def State.closeHash (s : State) (d : Word) : State := { s with digest := some d, st := none, ph := .idle }

/-- `D512V ← 0` (44_mum512.md R131). -/
def State.dropDigest512 (s : State) : State := { s with digest512 := none, st512 := none }

/-- `DIGEST512` and `D512V` (44_mum512.md R131); `ST512` holds nothing between commands (10_state.md R28). -/
def State.setDigest512 (s : State) (d : Vector Word 8) : State := { s with digest512 := some d, st512 := none }

/-- 45_prng_system.md R137. -/
def State.seedGen (s : State) : State := { s with pstate := some s.seed, pctr := 0, pout := none }

/-- The three updates of 45_prng_system.md R138. -/
def State.stepGen (s : State) (v : Word) : State := { s with pout := some v, pstate := some v, pctr := s.pctr + 1 }

/-- 45_prng_system.md R139. -/
def State.seedGen512 (s : State) : State := { s with pstate512 := some s.seed512, pctr512 := 0, pout512 := none }

/-- The updates of 45_prng_system.md R140; `ST512` holds nothing between commands (10_state.md R28). -/
def State.stepGen512 (s : State) (v : Vector Word 8) : State :=
  { s with pout512 := some v, pstate512 := some v, pctr512 := s.pctr512 + 1, st512 := none }

end Sys2Proof.Machine
end

