-- ==== Sys2Proof/Machine/Generator.lean ====
section
/-! DEFINITION. The generators (45_prng_system.md R137 to R141). They read no memory. -/

namespace Sys2Proof.Machine

/-- 45_prng_system.md R138: `E_UNSEEDED` unless `PSTATE` is valid; the updates use the old state and counter. -/
def performPnext (s : State) : Result :=
  match s.pstate with
  | none => raise .eUnseeded s
  | some x => .done (s.stepGen (hp s.cfg (x ^^^ s.pctr)))

/-- 45_prng_system.md R140. -/
def performPnext512 (s : State) : Result :=
  match s.pstate512 with
  | none => raise .eUnseeded s
  | some x => .done (s.stepGen512 (hp512 s.cfg x s.pctr512))

/-- `PSEED` (45_prng_system.md R137). -/
def execPseed (s : State) : Host.Outcome State Fault Refusal := runCommand .pseed (fun t => .done t.seedGen) s

/-- `PNEXT` (45_prng_system.md R138). -/
def execPnext (s : State) : Host.Outcome State Fault Refusal := runCommand .pnext performPnext s

/-- `PSEED512` (45_prng_system.md R139). -/
def execPseed512 (s : State) : Host.Outcome State Fault Refusal := runCommand .pseed512 (fun t => .done t.seedGen512) s

/-- `PNEXT512` (45_prng_system.md R140). -/
def execPnext512 (s : State) : Host.Outcome State Fault Refusal := runCommand .pnext512 performPnext512 s

end Sys2Proof.Machine
end

