-- ==== Sys2Proof/Machine/Stage.lean ====
section
/-! DEFINITION. The stage commands (41_block_tail_final.md R91, R94, R97, R99; 42_vector_layer.md R109, R111): the
state change of each, and the command. The macro commands perform the same state changes. -/

namespace Sys2Proof.Machine

/-- 41_block_tail_final.md R91: the range check, then the hash is open. -/
def performHinit : State → Result := checkRange fun s => .done s.openHash

/-- 42_vector_layer.md R109. -/
def performVmix (s : State) : Result :=
  checkStage (decide (s.ph = .vec) && decide (128 ≤ s.left))
    (fun s => withKey s.nextKey 128 (fun b t => .done (t.putVec (vecBlock t.cfg t.vs (leWords 16 b)))) s) s

/-- 42_vector_layer.md R111. -/
def performVred (s : State) : Result :=
  checkStage (decide (s.ph = .vec) && decide (s.left < 128))
    (withST fun x t => .done (t.endVec (vecReduce t.cfg x t.vs))) s

/-- 41_block_tail_final.md R94. -/
def performBmix (s : State) : Result :=
  checkStage (decide (s.ph = .blk) && decide (64 ≤ s.left))
    (fun s => withKey s.nextKey 64 (fun b => withST fun x t => .done (t.putBlock (blockMix t.cfg x (leWords 8 b)))) s) s

/-- 41_block_tail_final.md R97: exactly the bytes that are left (R96). -/
def performTmix (s : State) : Result :=
  checkStage (decide (s.ph = .blk) && decide (s.left < 64))
    (fun s => withKey s.nextKey s.left (fun b => withST fun x t => .done (t.putTail (tailMix t.cfg x b))) s) s

/-- 41_block_tail_final.md R99. -/
def performHfin (s : State) : Result :=
  checkStage (decide (s.ph = .fin)) (withST fun x t => .done (t.closeHash (finalMix t.cfg x))) s

/-- `HINIT` (41_block_tail_final.md R91). -/
def execHinit (s : State) : Host.Outcome State Fault Refusal := runCommand .hinit performHinit s

/-- `VMIX` (42_vector_layer.md R109). -/
def execVmix (s : State) : Host.Outcome State Fault Refusal := runCommand .vmix performVmix s

/-- `VRED` (42_vector_layer.md R111). -/
def execVred (s : State) : Host.Outcome State Fault Refusal := runCommand .vred performVred s

/-- `BMIX` (41_block_tail_final.md R94). -/
def execBmix (s : State) : Host.Outcome State Fault Refusal := runCommand .bmix performBmix s

/-- `TMIX` (41_block_tail_final.md R97). -/
def execTmix (s : State) : Host.Outcome State Fault Refusal := runCommand .tmix performTmix s

/-- `HFIN` (41_block_tail_final.md R99). -/
def execHfin (s : State) : Host.Outcome State Fault Refusal := runCommand .hfin performHfin s

end Sys2Proof.Machine
end

