-- ==== Sys2Proof/Machine/Macro.lean ====
section
/-! DEFINITION. The macro commands: `HASH64` and `VHASH64` (43_hash_drivers.md R116, R117), `HASH512`
(44_mum512.md R131). -/

namespace Sys2Proof.Machine

/-- The vector layer of 43_hash_drivers.md R116: when the phase is `VEC`, `VMIX` while 128 bytes are left, then
`VRED`. Each `VMIX` takes 128 bytes, so the loop runs `left div 128` times (log entry 25). -/
def performVectorLayer (s : State) : Result :=
  if s.ph = .vec then andThen (performTimes performVmix (s.left / 128) s) performVred else .done s

/-- The block loop of 43_hash_drivers.md R116: `BMIX` while 64 bytes are left. -/
def performBlocks (s : State) : Result := performTimes performBmix (s.left / 64) s

/-- 43_hash_drivers.md R116: the whole sequence inside one command. -/
def performHash64 (s : State) : Result :=
  andThen (performHinit s) fun s =>
  andThen (performVectorLayer s) fun s =>
  andThen (performBlocks s) fun s =>
  andThen (performTmix s) performHfin

/-- 44_mum512.md R131. -/
def performHash512 : State → Result :=
  checkRange fun s =>
    withKey s.kbase.toNat s.klen.toNat (fun key t => .done (t.setDigest512 (h512 t.cfg key t.seed512))) s.dropDigest512

/-- `HASH64` (43_hash_drivers.md R116). -/
def execHash64 (s : State) : Host.Outcome State Fault Refusal := runCommand .hash64 performHash64 s

/-- `VHASH64` (43_hash_drivers.md R117): literally the same function; an error records its own word. -/
def execVhash64 (s : State) : Host.Outcome State Fault Refusal := runCommand .vhash64 performHash64 s

/-- `HASH512` (44_mum512.md R131). -/
def execHash512 (s : State) : Host.Outcome State Fault Refusal := runCommand .hash512 performHash512 s

end Sys2Proof.Machine
end

