-- ==== Sys2Proof/Machine/Primitive.lean ====
section
/-! DEFINITION. The primitive commands (40_primitives.md part B, R81 to R88): they read `OPA`, `OPB` and the
configuration, and write `RES` and `RV`. -/

namespace Sys2Proof.Machine

/-- A primitive command: its result goes to the result file. -/
def primitive (i : Instr) (r : State → Vector Word 4) (s : State) : Host.Outcome State Fault Refusal :=
  runCommand i (fun t => .done (t.setRes (r t))) s

/-- 40_primitives.md R81. -/
def execMulw (s : State) : Host.Outcome State Fault Refusal :=
  primitive .mulw (fun t => twoLimbs (mulw64 t.opa[0] t.opb[0])) s

/-- 40_primitives.md R82. -/
def execMumx (s : State) : Host.Outcome State Fault Refusal :=
  primitive .mumx (fun t => oneLimb (mumx t.opa[0] t.opb[0])) s

/-- 40_primitives.md R83. -/
def execMuma (s : State) : Host.Outcome State Fault Refusal :=
  primitive .muma (fun t => oneLimb (muma t.opa[0] t.opb[0])) s

/-- 40_primitives.md R84. -/
def execMulw128 (s : State) : Host.Outcome State Fault Refusal :=
  primitive .mulw128 (fun t => fourLimbs (mulw128 (operandA t) (operandB t))) s

/-- 40_primitives.md R85. -/
def execMum128x (s : State) : Host.Outcome State Fault Refusal :=
  primitive .mum128x (fun t => twoLimbs (mum128x (operandA t) (operandB t))) s

/-- 40_primitives.md R86. -/
def execMum128a (s : State) : Host.Outcome State Fault Refusal :=
  primitive .mum128a (fun t => twoLimbs (mum128a (operandA t) (operandB t))) s

/-- 40_primitives.md R87: four lanes that do not interact. -/
def execVmum32 (s : State) : Host.Outcome State Fault Refusal :=
  primitive .vmum32
    (fun t => #v[mum32 t.opa[0] t.opb[0], mum32 t.opa[1] t.opb[1], mum32 t.opa[2] t.opb[2], mum32 t.opa[3] t.opb[3]])
    s

/-- 40_primitives.md R88: one term of the block mixer (`idx ≤ 7`) or of the tail mixer. -/
def execMumc (idx : BitVec 4) (s : State) : Host.Outcome State Fault Refusal :=
  primitive (.mumc idx) (fun t => oneLimb (mum (foldAt t.cfg idx) t.opa[0] (constAt t.cfg idx))) s

end Sys2Proof.Machine
end

