-- ==== Sys2Proof/Machine/System.lean ====
section
/-! DEFINITION. The system commands `NOP` and `SRST` (45_prng_system.md R142, R143). -/

namespace Sys2Proof.Machine

/-- 45_prng_system.md R142: changes no state at all. -/
def execNop (s : State) : Host.Outcome State Fault Refusal := runCommand .nop Result.done s

/-- 45_prng_system.md R143: identical to a hard reset, and the only command executed while `ERR ≠ 0`
(60_exceptions.md R153). -/
def execSrst (s : State) : Host.Outcome State Fault Refusal := .next s.resetBlock

end Sys2Proof.Machine
end

