-- ==== Sys2Proof/Machine/Dispatch.lean ====
section
/-! DEFINITION. One arm per command (30_encoding.md R63: decode, then perform). -/

namespace Sys2Proof.Machine

def exec (i : Instr) (s : State) : Host.Outcome State Fault Refusal :=
  match i with
  | .nop => Sys2Proof.Machine.execNop s
  | .srst => Sys2Proof.Machine.execSrst s
  | .mulw => Sys2Proof.Machine.execMulw s
  | .mumx => Sys2Proof.Machine.execMumx s
  | .muma => Sys2Proof.Machine.execMuma s
  | .mulw128 => Sys2Proof.Machine.execMulw128 s
  | .mum128x => Sys2Proof.Machine.execMum128x s
  | .mum128a => Sys2Proof.Machine.execMum128a s
  | .vmum32 => Sys2Proof.Machine.execVmum32 s
  | .mumc idx => Sys2Proof.Machine.execMumc idx s
  | .hinit => Sys2Proof.Machine.execHinit s
  | .vmix => Sys2Proof.Machine.execVmix s
  | .vred => Sys2Proof.Machine.execVred s
  | .bmix => Sys2Proof.Machine.execBmix s
  | .tmix => Sys2Proof.Machine.execTmix s
  | .hfin => Sys2Proof.Machine.execHfin s
  | .hash64 => Sys2Proof.Machine.execHash64 s
  | .vhash64 => Sys2Proof.Machine.execVhash64 s
  | .hash512 => Sys2Proof.Machine.execHash512 s
  | .pseed => Sys2Proof.Machine.execPseed s
  | .pnext => Sys2Proof.Machine.execPnext s
  | .pseed512 => Sys2Proof.Machine.execPseed512 s
  | .pnext512 => Sys2Proof.Machine.execPnext512 s

end Sys2Proof.Machine
end

