-- ==== Sys2Proof/Machine/Flags.lean ====
section
/-! DEFINITION. The two status words: `STATUS` (10_state.md R25, 60_exceptions.md R151) and `CFG` (10_state.md R21).
The block has no arithmetic flags (10_state.md R31). -/

namespace Sys2Proof.Machine

/-- The value of `STATUS.ERR` (60_exceptions.md R151). -/
def ErrCode.code : ErrCode → BitVec 4
  | .eNone => 0
  | .eIllCmd => 1
  | .eSeq => 2
  | .eRange => 3
  | .eKeyFault => 4
  | .eUnseeded => 5

/-- A valid flag: 1 exactly when the value it guards is valid (10_state.md R17, R20, R30). -/
def validBit {α : Type} (v : Option α) : BitVec 1 := BitVec.ofBool v.isSome

/-- `STATUS` (10_state.md R25), most significant field first: zero, `PSD512`, `PSD`, `P512V`, `PV`, `D512V`, `RV`,
`DV`, `ERR`. -/
def statusWord (s : State) : Word :=
  (0 : BitVec 53) ++ validBit s.pstate512 ++ validBit s.pstate ++ validBit s.pout512 ++ validBit s.pout
    ++ validBit s.digest512 ++ validBit s.res ++ validBit s.digest ++ s.err.code

/-- A `FOLDCFG` bit: 0 XOR, 1 ADD (10_state.md R15, R21). -/
def foldBit : Fold → BitVec 1
  | .xor => 0
  | .add => 1

/-- `CFG.VLENC` (10_state.md R21). -/
def vlenCode : VLen → BitVec 2
  | .scalar => 0
  | .simd128 => 1
  | .simd256 => 2

/-- `CFG` (10_state.md R21), most significant field first: zero, the nine fold bits from `f_512` down to `f_init`,
`NMUL`, `SALIGN`, `VLENC`. -/
def cfgWord (c : Cfg) : Word :=
  (0 : BitVec 51) ++ foldBit c.fold.f512 ++ foldBit c.fold.fFin ++ foldBit c.fold.aVred ++ foldBit c.fold.fVred
    ++ foldBit c.fold.aTail ++ foldBit c.fold.fTail ++ foldBit c.fold.aBlk ++ foldBit c.fold.fBlk
    ++ foldBit c.fold.fInit ++ BitVec.ofBool c.nmul ++ BitVec.ofBool c.salign ++ vlenCode c.vlen

end Sys2Proof.Machine
end

