-- ==== Sys2Proof/Machine/HostPort.lean ====
section
/-! DEFINITION. The host's side: the register map (10_state.md R22), register reads and writes (R23, R24), the byte
view (R32), hard reset (70_reset_and_hazards.md R170), changes of the key space (R177), and the fetch of the next
transaction. -/

namespace Sys2Proof.Machine

/-- The registers by name (10_state.md R22). -/
inductive Reg where
  | cfg
  | cmd
  | status
  | errinfo
  | seed
  | kbase
  | klen
  | digest
  | opa (i : Fin 4)
  | opb (i : Fin 4)
  | res (i : Fin 4)
  | pout
  | erraddr
  | seed512 (i : Fin 8)
  | digest512 (i : Fin 8)
  | pout512 (i : Fin 8)
  | reserved
deriving DecidableEq, Repr

/-- The register with number `n` (10_state.md R22); 22, 23 and 48 to 63 are reserved. -/
def regOf (n : Fin 64) : Reg :=
  if n.val = 0 then .cfg
  else if n.val = 1 then .cmd
  else if n.val = 2 then .status
  else if n.val = 3 then .errinfo
  else if n.val = 4 then .seed
  else if n.val = 5 then .kbase
  else if n.val = 6 then .klen
  else if n.val = 7 then .digest
  else if n.val < 12 then .opa (Fin.ofNat 4 (n.val - 8))
  else if n.val < 16 then .opb (Fin.ofNat 4 (n.val - 12))
  else if n.val < 20 then .res (Fin.ofNat 4 (n.val - 16))
  else if n.val = 20 then .pout
  else if n.val = 21 then .erraddr
  else if n.val < 24 then .reserved
  else if n.val < 32 then .seed512 (Fin.ofNat 8 (n.val - 24))
  else if n.val < 40 then .digest512 (Fin.ofNat 8 (n.val - 32))
  else if n.val < 48 then .pout512 (Fin.ofNat 8 (n.val - 40))
  else .reserved

/-- The register number of `CMD` (10_state.md R22). -/
def cmdReg : Fin 64 := 1

/-- What a host read of a register returns (10_state.md R22, R23); `none` where the valid flag is 0 and the value is
unspecified (R24). -/
def regValue (s : State) : Reg → Option Word
  | .cfg => some (cfgWord s.cfg)
  | .cmd => some 0
  | .status => some (statusWord s)
  | .errinfo => some s.errinfo
  | .seed => some s.seed
  | .kbase => some s.kbase
  | .klen => some s.klen
  | .digest => s.digest
  | .opa i => some s.opa[i]
  | .opb i => some s.opb[i]
  | .res i => s.res.map (fun r => r[i])
  | .pout => s.pout
  | .erraddr => some s.erraddr
  | .seed512 i => some s.seed512[i]
  | .digest512 i => s.digest512.map (fun d => d[i])
  | .pout512 i => s.pout512.map (fun d => d[i])
  | .reserved => some 0

/-- `HostRead(n)` (10_state.md R23, R24): the value goes to the host and no register changes. An unspecified value is
a free value, a new one at each such read (log entry 6). -/
def hostRead (n : Fin 64) (s : State) : State :=
  match regValue s (regOf n) with
  | some v => { s with hostReads := (n, v) :: s.hostReads }
  | none => { s with hostReads := (n, Config.unspecifiedRead s.freeCtr) :: s.hostReads, freeCtr := s.freeCtr + 1 }

/-- `HostWrite(n, v)` on a register other than `CMD` (10_state.md R23): an RW register takes all 64 bits; a write to
an RO or reserved register is ignored. Works whatever `ERR` is (60_exceptions.md R153). -/
def hostWrite (n : Fin 64) (v : Word) (s : State) : State :=
  match regOf n with
  | .seed => { s with seed := v }
  | .kbase => { s with kbase := v }
  | .klen => { s with klen := v }
  | .opa i => { s with opa := s.opa.set i v }
  | .opb i => { s with opb := s.opb.set i v }
  | .seed512 i => { s with seed512 := s.seed512.set i v }
  | .cfg | .cmd | .status | .errinfo | .digest | .res _ | .pout | .erraddr | .digest512 _ | .pout512 _
  | .reserved => s

/-- The byte at an offset of the 512-byte register window (10_state.md R32): byte `offset mod 8` of register
`offset div 8`; `none` where the register's value is unspecified (R24). -/
def windowByte (s : State) (offset : Fin 512) : Option Byte :=
  (regValue s (regOf (Fin.ofNat 64 (offset.val / 8)))).map (fun v => byteLane v (offset.val % 8))

/-- The environment's change of one key address (70_reset_and_hazards.md R177). -/
def State.setKeyByte (s : State) (a : Word) (b : Option Byte) : State := { s with mem := Memory.set s.mem a.toNat b }

/-- What the core finds at its host port. -/
inductive Fetched where
  /-- the host has issued nothing: the block holds its state (60_exceptions.md R160) -/
  | idle
  /-- a command: the value written to `CMD`, and the state with that write taken from the port -/
  | command (v : Word) (s : State)
  /-- any other transaction, performed -/
  | other (s : State)
deriving DecidableEq, Repr

/-- Take the host's next transaction (20_memory.md R50 (a)) and, unless it is a command, perform it. -/
def fetch (s : State) : Fetched :=
  match s.inbox with
  | [] => .idle
  | .write n v :: r =>
    if n = cmdReg then .command v { s with inbox := r } else .other (hostWrite n v { s with inbox := r })
  | .read n :: r => .other (hostRead n { s with inbox := r })
  | .hardReset :: r => .other (State.resetBlock { s with inbox := r })
  | .setKey a b :: r => .other (State.setKeyByte { s with inbox := r } a b)

end Sys2Proof.Machine
end

