-- ==== Sys2Proof/Machine/Step.lean ====
section
/-! DEFINITION. One step: the host's next transaction takes effect (20_memory.md R50), a command atomically
(30_encoding.md R55). -/

namespace Sys2Proof.Machine

/-- Fetch one transaction and perform it; decode a command first and give it its meaning second (30_encoding.md
R63). With no transaction issued the block holds its state. -/
def step (s : State) : Host.Outcome State Fault Refusal :=
  match fetch s with
  | .idle => .next s
  | .other t => .next t
  | .command v t =>
    match decode v with
    | .ok i => exec i t
    | .error _ => .next (illegalCommand v t)

/-- `s` with a write of the low `nbits` bits of `w` to `CMD` as the host's next transaction (log entry 4). -/
def State.withFetchWord (s : State) (nbits w : Nat) : State :=
  { s with inbox := .write cmdReg (BitVec.ofNat 64 (w % 2 ^ nbits)) :: s.inbox }

end Sys2Proof.Machine
end

