-- ==== Sys2Proof/Safety.lean ====
section
/-! DEFINITION. What counts as a safe state and a safe run, and the terms the statements use: a key that lies in the
key space, the host's stage sequence, the generator's stream, a change of the unobservable parameters. -/

namespace Sys2Proof.Machine

/-- The invariant of every state a run from reset reaches. -/
structure StateInv (s : State) : Prop where
  /-- the key space is in canonical form (log entry 3) -/
  memory : Memory.wf s.mem = true
  /-- 41_block_tail_final.md R101: `ST` is valid exactly while `PH ≠ IDLE` -/
  stValid : s.st.isSome = true ↔ s.ph ≠ .idle
  /-- 10_state.md R29: `0 ≤ CUR ≤ LLEN` -/
  curInKey : s.cur.toNat ≤ s.llen.toNat
  /-- 10_state.md R29, 42_vector_layer.md R105: whole vector blocks, and a key that engages the vector layer -/
  curVec : s.ph = .vec → s.cur.toNat % 128 = 0 ∧ 512 ≤ s.llen.toNat
  /-- 10_state.md R29: `CUR` is a multiple of 64 until `TMIX` -/
  curBlk : s.ph = .blk → s.cur.toNat % 64 = 0
  /-- 41_block_tail_final.md R97: the tail mixer leaves `CUR = LLEN` -/
  curFin : s.ph = .fin → s.cur = s.llen
  /-- 10_state.md R29: `LBASE + LLEN ≤ 2^64` -/
  keyRange : s.lbase.toNat + s.llen.toNat ≤ 2 ^ 64
  /-- 42_vector_layer.md R106: bits `[63:32]` of every `vs[i]` stay 0 -/
  lanes : ∀ i : Fin 4, s.vs[i].toNat < 2 ^ 32
  /-- 60_exceptions.md R152, R153: an error closes the sequence and nothing opens one while it stands -/
  errClosed : s.err ≠ .eNone → s.ph = .idle
  /-- 10_state.md R26: `ERRADDR` is 0 for every code but `E_KEYFAULT` -/
  errAddr : s.err ≠ .eKeyFault → s.erraddr = 0
  /-- 60_exceptions.md R151: with no error recorded `ERRINFO` is 0, as after reset -/
  errInfo : s.err = .eNone → s.errinfo = 0
  /-- 41_block_tail_final.md R91: while a hash is open `DIGEST` is invalid -/
  digestClosed : s.digest.isSome = true → s.ph = .idle
  /-- 45_prng_system.md R135: the state after a `next()` is the value it returned -/
  pout : ∀ v, s.pout = some v → s.pstate = some v
  /-- 45_prng_system.md R140, the same for the 512-bit generator -/
  pout512 : ∀ v, s.pout512 = some v → s.pstate512 = some v
  /-- 10_state.md R28: `ST512` holds nothing between commands -/
  st512 : s.st512 = none

/-- A step is safe when the machine goes on: no fault, no refusal. -/
def Proceeds (o : Host.Outcome State Fault Refusal) : Prop := ∃ t, o = .next t

/-- The bytes of `key` are valid and stand at `base, base+1, …` (20_memory.md R42: D0's caller obligation). -/
def KeyHolds (m : Memory) (base : Nat) (key : List Byte) : Prop :=
  ∀ (k : Nat) (h : k < key.length), Memory.read m (base + k) = some key[k]

/-- The first `k` addresses from `base` are valid and the next one is not: the read that starts at `base` faults
there (20_memory.md R42). -/
def FirstInvalid (m : Memory) (base k : Nat) : Prop :=
  (∀ j, j < k → (Memory.read m (base + j)).isSome = true) ∧ Memory.read m (base + k) = none

/-- The commands that run one `hash64.s` for a key of `len` bytes (30_encoding.md R62). -/
def stageSequence (len : Nat) : List Instr :=
  [.hinit]
    ++ (if 512 ≤ len then List.replicate (len / 128) .vmix ++ [.vred] else [])
    ++ List.replicate ((len - vecExtent len) / 64) .bmix
    ++ [.tmix, .hfin]

/-- The host's transactions that issue these commands (30_encoding.md R61). -/
def cmdWrites (is : List Instr) : List HostEvent := is.map fun i => .write cmdReg (encode i)

/-- The states of the 64-bit generator (45_prng_system.md R135): `s_0 = seed`, `s_{n+1} = H(s_n ⊕ n)`. -/
def generatorState (c : Cfg) (seed : Word) : Nat → Word
  | 0 => seed
  | n + 1 => hp c (generatorState c seed n ^^^ BitVec.ofNat 64 n)

/-- The same block built with another SIMD width, load path or multiplier (10_state.md R21, 93 U8). -/
def State.withImpl (s : State) (vlen : VLen) (salign nmul : Bool) : State :=
  { s with cfg := { s.cfg with vlen := vlen, salign := salign, nmul := nmul } }

/-- Apply a function to the state of a step that goes on. -/
def mapNext (f : State → State) : Host.Outcome State Fault Refusal → Host.Outcome State Fault Refusal
  | .next s => .next (f s)
  | .fault r => .fault r
  | .refused r => .refused r

/-- The eight primitive commands (40_primitives.md part B). -/
def isPrimitive : Instr → Bool
  | .mulw | .mumx | .muma | .mulw128 | .mum128x | .mum128a | .vmum32 | .mumc _ => true
  | .nop | .srst | .hinit | .vmix | .vred | .bmix | .tmix | .hfin | .hash64 | .vhash64 | .hash512 | .pseed
  | .pnext | .pseed512 | .pnext512 => false

/-- The commands that act on the 64-bit hash: the stage commands, `HASH64`, `VHASH64` (45_prng_system.md R144). -/
def isHash : Instr → Bool
  | .hinit | .vmix | .vred | .bmix | .tmix | .hfin | .hash64 | .vhash64 => true
  | .nop | .srst | .mulw | .mumx | .muma | .mulw128 | .mum128x | .mum128a | .vmum32 | .mumc _ | .hash512 | .pseed
  | .pnext | .pseed512 | .pnext512 => false

end Sys2Proof.Machine
end

