-- ==== Sys2Proof/Certificates/Slice0/Obligations.lean ====
section
/-! DEFINITION. The statements for the provers. Each docstring names the rules of spec/ it formalises. The
configuration record is a field of the state, so a statement about every state is about every configuration
(log entry 1). A state update lists what changes; everything it does not name is unchanged: that is the frame. -/

open Sys2Proof Sys2Proof.Machine

/-! ### Encoding -/

/-- 30_encoding.md R57, R58, R59: a value decodes to a command exactly when it is that command's word. -/
def Obligations.DecodeInvertsEncode : Prop :=
  ∀ (i : Instr) (v : Word), decode v = .ok i ↔ v = encode i

/-- 30_encoding.md R59: which written values are illegal, and that an illegal command raises `E_ILLCMD` and does
nothing else. -/
def Obligations.IllegalWordRaisesIllcmd : Prop :=
  ∀ v : Word,
    ((∃ e, decode v = .error e) ↔
      (v.extractLsb' 12 52 ≠ 0
        ∨ v.extractLsb' 0 8 ∉ ([0x00, 0x01, 0x10, 0x11, 0x12, 0x14, 0x15, 0x16, 0x18, 0x20, 0x30, 0x31, 0x32, 0x33,
            0x34, 0x35, 0x40, 0x41, 0x44, 0x50, 0x51, 0x54, 0x55] : List (BitVec 8))
        ∨ (v.extractLsb' 0 8 ≠ 0x20 ∧ v.extractLsb' 8 4 ≠ 0)))
    ∧ ∀ (s : State) (rest : List HostEvent) (e : Illegal),
        decode v = .error e → s.inbox = .write 1 v :: rest → s.err = .eNone →
        step s = .next { s with
          inbox := rest, err := .eIllCmd, errinfo := v, erraddr := 0, st := none, ph := .idle }

/-- 30_encoding.md R57 and the table of 95_test_vectors.md section 2.1: written-out words of every group decode to
the command they stand for, and their neighbours in the gaps do not. -/
def Obligations.WrittenWordsDecode : Prop :=
  decode 0x0000000000000000 = .ok .nop ∧ decode 0x0000000000000018 = .ok .vmum32
    ∧ decode 0x0000000000000f20 = .ok (.mumc 15) ∧ decode 0x0000000000000035 = .ok .hfin
    ∧ decode 0x0000000000000040 = .ok .hash64 ∧ decode 0x0000000000000055 = .ok .pnext512
    ∧ decode 0x0000000000000013 = .error .unknownOpcode ∧ decode 0x0000000000000110 = .error .operandOnF0
    ∧ decode 0x0000000100000040 = .error .upperBits

/-! ### Steps and the host port -/

/-- 30_encoding.md R55, R63, 20_memory.md R50: a step takes the host's next transaction; when it is a write of a
legal command word to `CMD`, the step is that command's meaning. With nothing issued the state is held (log
entry 4). -/
def Obligations.StepRunsDecodedCommand : Prop :=
  (∀ (s : State) (rest : List HostEvent) (v : Word) (i : Instr),
    s.inbox = .write 1 v :: rest → decode v = .ok i → step s = exec i { s with inbox := rest })
  ∧ ∀ s : State, s.inbox = [] → step s = .next s

/-- 10_state.md R22, R23: a write to an RW register replaces all its bits and changes nothing else; a write to an RO
or reserved register is ignored. It works whatever `ERR` is (60_exceptions.md R153). -/
def Obligations.RegisterWriteTakesEffect : Prop :=
  ∀ (s : State) (rest : List HostEvent) (n : Fin 64) (v : Word), s.inbox = .write n v :: rest →
    (n.val = 4 → step s = .next { s with inbox := rest, seed := v })
    ∧ (n.val = 5 → step s = .next { s with inbox := rest, kbase := v })
    ∧ (n.val = 6 → step s = .next { s with inbox := rest, klen := v })
    ∧ (∀ i : Fin 4, n.val = 8 + i.val → step s = .next { s with inbox := rest, opa := s.opa.set i v })
    ∧ (∀ i : Fin 4, n.val = 12 + i.val → step s = .next { s with inbox := rest, opb := s.opb.set i v })
    ∧ (∀ i : Fin 8, n.val = 24 + i.val → step s = .next { s with inbox := rest, seed512 := s.seed512.set i v })
    ∧ (n.val ∈ ([0, 2, 3, 7] : List Nat) ∨ (16 ≤ n.val ∧ n.val < 24) ∨ 32 ≤ n.val → step s = .next { s with inbox := rest })

/-- 10_state.md R22, R23, R24: a read changes no register and no hidden state; it returns the register's value, 0 for
`CMD` and the reserved registers, and an unspecified value for a result register that is not valid. -/
def Obligations.RegisterReadReturnsValue : Prop :=
  ∀ (s : State) (rest : List HostEvent) (n : Fin 64), s.inbox = .read n :: rest →
    ∃ (v : Word) (k : Nat),
      step s = .next { s with inbox := rest, hostReads := (n, v) :: s.hostReads, freeCtr := k }
      ∧ (n.val = 0 → v = cfgWord s.cfg) ∧ (n.val = 2 → v = statusWord s)
      ∧ (n.val = 3 → v = s.errinfo) ∧ (n.val = 21 → v = s.erraddr)
      ∧ (n.val = 4 → v = s.seed) ∧ (n.val = 5 → v = s.kbase) ∧ (n.val = 6 → v = s.klen)
      ∧ (∀ i : Fin 4, n.val = 8 + i.val → v = s.opa[i])
      ∧ (∀ i : Fin 4, n.val = 12 + i.val → v = s.opb[i])
      ∧ (∀ i : Fin 8, n.val = 24 + i.val → v = s.seed512[i])
      ∧ (∀ d, n.val = 7 → s.digest = some d → v = d)
      ∧ (∀ d, n.val = 20 → s.pout = some d → v = d)
      ∧ (∀ r, ∀ i : Fin 4, n.val = 16 + i.val → s.res = some r → v = r[i])
      ∧ (∀ d, ∀ i : Fin 8, n.val = 32 + i.val → s.digest512 = some d → v = d[i])
      ∧ (∀ d, ∀ i : Fin 8, n.val = 40 + i.val → s.pout512 = some d → v = d[i])
      ∧ (n.val = 1 ∨ n.val = 22 ∨ n.val = 23 ∨ 48 ≤ n.val → v = 0)

/-- 10_state.md R25, 60_exceptions.md R151: the fields of `STATUS`. -/
def Obligations.StatusWordFields : Prop :=
  ∀ s : State,
    (statusWord s).extractLsb' 0 4
        = (match s.err with
          | .eNone => 0 | .eIllCmd => 1 | .eSeq => 2 | .eRange => 3 | .eKeyFault => 4 | .eUnseeded => 5)
    ∧ (statusWord s).getLsbD 4 = s.digest.isSome
    ∧ (statusWord s).getLsbD 5 = s.res.isSome
    ∧ (statusWord s).getLsbD 6 = s.digest512.isSome
    ∧ (statusWord s).getLsbD 7 = s.pout.isSome
    ∧ (statusWord s).getLsbD 8 = s.pout512.isSome
    ∧ (statusWord s).getLsbD 9 = s.pstate.isSome
    ∧ (statusWord s).getLsbD 10 = s.pstate512.isSome
    ∧ (statusWord s).extractLsb' 11 53 = 0

/-- 10_state.md R21: the fields of `CFG`. -/
def Obligations.CfgWordFields : Prop :=
  ∀ c : Cfg,
    (cfgWord c).extractLsb' 0 2 = (match c.vlen with | .scalar => 0 | .simd128 => 1 | .simd256 => 2)
    ∧ (cfgWord c).getLsbD 2 = c.salign
    ∧ (cfgWord c).getLsbD 3 = c.nmul
    ∧ (cfgWord c).getLsbD 4 = decide (c.fold.fInit = .add)
    ∧ (cfgWord c).getLsbD 5 = decide (c.fold.fBlk = .add)
    ∧ (cfgWord c).getLsbD 6 = decide (c.fold.aBlk = .add)
    ∧ (cfgWord c).getLsbD 7 = decide (c.fold.fTail = .add)
    ∧ (cfgWord c).getLsbD 8 = decide (c.fold.aTail = .add)
    ∧ (cfgWord c).getLsbD 9 = decide (c.fold.fVred = .add)
    ∧ (cfgWord c).getLsbD 10 = decide (c.fold.aVred = .add)
    ∧ (cfgWord c).getLsbD 11 = decide (c.fold.fFin = .add)
    ∧ (cfgWord c).getLsbD 12 = decide (c.fold.f512 = .add)
    ∧ (cfgWord c).extractLsb' 13 51 = 0

/-- 10_state.md R32: byte `k` of register `n` is at offset `8n + k` and holds bits `[8k+7 : 8k]`, and a register's
eight bytes in ascending order assemble, little-endian, to the register. `LE` itself (20_memory.md R41) weighs byte `i`
by `2^(8i)`, whatever the number of bytes up to 16; the words the core forms from key bytes are `LE` of their bytes, and
a 16-byte word is its upper word above its lower. -/
def Obligations.WindowBytesLittleEndian : Prop :=
  (∀ (s : State) (n : Fin 64) (k : Fin 8) (o : Fin 512), o.val = 8 * n.val + k.val →
    windowByte s o = (regValue s (regOf n)).map (fun v => v.extractLsb' (8 * k.val) 8))
  ∧ (∀ v : Word, le (leBytes v) = v.toNat)
  ∧ (∀ b : List Byte, b.length ≤ 16 →
      le b = ((List.range b.length).map fun i => (b.getD i 0).toNat * 2 ^ (8 * i)).sum)
  ∧ (∀ b : List Byte, b.length ≤ 8 → (leWord b).toNat = le b)
  ∧ (∀ b : List Byte, b.length ≤ 16 → (leDWord b).toNat = le b)
  ∧ (∀ b : List Byte, b.length = 16 → leDWord b = leWord (b.drop 8) ++ leWord (b.take 8))
  ∧ ∀ (n : Nat) (b : List Byte), leWords n b = (List.range n).map fun j => leWord ((b.drop (8 * j)).take 8)

/-- 10_state.md R33, 70_reset_and_hazards.md R170: after `SRST`, whatever `ERR` is, and after the hard reset every
piece of block state has its reset value; the configuration and the key space are unchanged. -/
def Obligations.ResetStateValues : Prop :=
  encode .srst = 0x01 ∧ ∀ s : State, ∃ t : State,
    exec .srst s = .next t
    ∧ (∀ rest u, s = { u with inbox := rest } → u.inbox = .hardReset :: rest → step u = .next t)
    ∧ t.err = .eNone ∧ statusWord t = 0 ∧ t.errinfo = 0 ∧ t.erraddr = 0
    ∧ t.seed = s.cfg.seedDefault ∧ (∀ i : Fin 8, t.seed512[i] = s.cfg.seedDefault)
    ∧ t.kbase = 0 ∧ t.klen = 0 ∧ (∀ i : Fin 4, t.opa[i] = 0 ∧ t.opb[i] = 0)
    ∧ t.res = none ∧ t.digest = none ∧ t.digest512 = none ∧ t.pout = none ∧ t.pout512 = none
    ∧ t.st = none ∧ (∀ i : Fin 4, t.vs[i] = 0) ∧ t.st512 = none
    ∧ t.ph = .idle ∧ t.cur = 0 ∧ t.lbase = 0 ∧ t.llen = 0
    ∧ t.pstate = none ∧ t.pstate512 = none ∧ t.pctr = 0 ∧ t.pctr512 = 0
    ∧ t.cfg = s.cfg ∧ t.mem = s.mem ∧ t.inbox = s.inbox ∧ t.hostReads = s.hostReads ∧ t.keyReads = s.keyReads
    ∧ t.freeCtr = s.freeCtr

/-- 60_exceptions.md R153: while `ERR ≠ 0` a write to `CMD` that decodes to `SRST` executes it, and any other is
ignored completely, an illegal word included; writes to other registers and all reads do what they do with no error
recorded. -/
def Obligations.StickyErrorIgnoresCommands : Prop :=
  ∀ (s : State) (rest : List HostEvent), s.err ≠ .eNone →
    (∀ v : Word, s.inbox = .write 1 v :: rest →
      (decode v = .ok .srst → step s = .next (State.resetBlock { s with inbox := rest }))
      ∧ (decode v ≠ .ok .srst → step s = .next { s with inbox := rest }))
    ∧ (∀ (n : Fin 64) (v : Word), n ≠ 1 → s.inbox = .write n v :: rest →
      ∃ t : State, step { s with err := .eNone } = .next t ∧ step s = .next { t with err := s.err })
    ∧ ∀ n : Fin 64, n ≠ 2 → s.inbox = .read n :: rest →
      ∃ t : State, step { s with err := .eNone } = .next t ∧ step s = .next { t with err := s.err }

/-- 20_memory.md R42, R51, 70_reset_and_hazards.md R177: the environment's change of one address is seen at that
address and nowhere else, and touches no register. -/
def Obligations.KeyChangeIsLocal : Prop :=
  ∀ (s : State) (rest : List HostEvent) (a : Word) (b : Option Byte),
    s.inbox = .setKey a b :: rest → Memory.wf s.mem = true →
    ∃ m : Memory, step s = .next { s with inbox := rest, mem := m }
      ∧ ∀ x : Nat, Memory.read m x = if x = a.toNat then b else Memory.read s.mem x

/-- The canonical form of the key space (20_memory.md R42; the model's choice of log entry 3): two key spaces that
read alike everywhere are the same data. -/
def Obligations.EqualReadingKeySpacesAreEqual : Prop :=
  ∀ m n : Memory, Memory.wf m = true → Memory.wf n = true →
    (∀ a : Nat, Memory.read m a = Memory.read n a) → m = n

/-! ### System and primitive commands -/

/-- 45_prng_system.md R142: `NOP` changes no state at all, whatever `ERR` is. -/
def Obligations.NopChangesNothing : Prop :=
  encode .nop = 0x00 ∧ ∀ s : State, exec .nop s = .next s

/-- 40_primitives.md R81: `RES[1] ‖ RES[0]` is the exact 128-bit product; `OPA[1..3]`, `OPB[1..3]` are ignored. -/
def Obligations.MulwIsExactProduct : Prop :=
  encode .mulw = 0x10 ∧ ∀ s : State, s.err = .eNone → ∃ r : Vector Word 4,
    exec .mulw s = .next { s with res := some r }
    ∧ r[0].toNat + 2 ^ 64 * r[1].toNat = s.opa[0].toNat * s.opb[0].toNat ∧ r[2] = 0 ∧ r[3] = 0

/-- 40_primitives.md R82 with R72: the halves of the exact product, xored. -/
def Obligations.MumxFoldsByXor : Prop :=
  encode .mumx = 0x11 ∧ ∀ s : State, s.err = .eNone → ∃ r : Vector Word 4,
    exec .mumx s = .next { s with res := some r }
    ∧ r[0] = BitVec.ofNat 64 (s.opa[0].toNat * s.opb[0].toNat / 2 ^ 64)
        ^^^ BitVec.ofNat 64 (s.opa[0].toNat * s.opb[0].toNat % 2 ^ 64)
    ∧ r[1] = 0 ∧ r[2] = 0 ∧ r[3] = 0

/-- 40_primitives.md R83 with R73: the halves of the exact product, added modulo 2^64. -/
def Obligations.MumaFoldsByAdd : Prop :=
  encode .muma = 0x12 ∧ ∀ s : State, s.err = .eNone → ∃ r : Vector Word 4,
    exec .muma s = .next { s with res := some r }
    ∧ r[0].toNat = (s.opa[0].toNat * s.opb[0].toNat / 2 ^ 64 + s.opa[0].toNat * s.opb[0].toNat % 2 ^ 64) % 2 ^ 64
    ∧ r[1] = 0 ∧ r[2] = 0 ∧ r[3] = 0

/-- 40_primitives.md R84: `RES[3] ‖ RES[2] ‖ RES[1] ‖ RES[0]` is the exact 256-bit product. -/
def Obligations.Mulw128IsExactProduct : Prop :=
  encode .mulw128 = 0x14 ∧ ∀ s : State, s.err = .eNone → ∃ r : Vector Word 4,
    exec .mulw128 s = .next { s with res := some r }
    ∧ r[0].toNat + 2 ^ 64 * r[1].toNat + 2 ^ 128 * r[2].toNat + 2 ^ 192 * r[3].toNat
      = (s.opa[0].toNat + 2 ^ 64 * s.opa[1].toNat) * (s.opb[0].toNat + 2 ^ 64 * s.opb[1].toNat)

/-- 40_primitives.md R85 with R78: the 128-bit halves of the exact product, xored. -/
def Obligations.Mum128xFoldsByXor : Prop :=
  encode .mum128x = 0x15 ∧ ∀ s : State, s.err = .eNone → ∃ r : Vector Word 4,
    exec .mum128x s = .next { s with res := some r }
    ∧ (∀ p : Nat,
        p = (s.opa[0].toNat + 2 ^ 64 * s.opa[1].toNat) * (s.opb[0].toNat + 2 ^ 64 * s.opb[1].toNat) →
        r[0].toNat + 2 ^ 64 * r[1].toNat = (p / 2 ^ 128) ^^^ (p % 2 ^ 128))
    ∧ r[2] = 0 ∧ r[3] = 0

/-- 40_primitives.md R86 with R79: the 128-bit halves of the exact product, added modulo 2^128: a carry out of bit
63 reaches `RES[1]`. -/
def Obligations.Mum128aFoldsByAdd : Prop :=
  encode .mum128a = 0x16 ∧ ∀ s : State, s.err = .eNone → ∃ r : Vector Word 4,
    exec .mum128a s = .next { s with res := some r }
    ∧ (∀ p : Nat,
        p = (s.opa[0].toNat + 2 ^ 64 * s.opa[1].toNat) * (s.opb[0].toNat + 2 ^ 64 * s.opb[1].toNat) →
        r[0].toNat + 2 ^ 64 * r[1].toNat = (p / 2 ^ 128 + p % 2 ^ 128) % 2 ^ 128)
    ∧ r[2] = 0 ∧ r[3] = 0

/-- 40_primitives.md R87 with R80: each lane is the product of its low halves, xor-folded; lanes do not interact. -/
def Obligations.Vmum32LanesIndependent : Prop :=
  encode .vmum32 = 0x18 ∧ ∀ s : State, s.err = .eNone → ∃ r : Vector Word 4,
    exec .vmum32 s = .next { s with res := some r }
    ∧ ∀ i : Fin 4, ∀ p : Nat, p = s.opa[i].toNat % 2 ^ 32 * (s.opb[i].toNat % 2 ^ 32) →
        r[i].toNat = (p / 2 ^ 32) ^^^ (p % 2 ^ 32)

/-- 40_primitives.md R88: `OPA[0]` times the hard-wired constant, folded as the constant's site says. -/
def Obligations.MumcFoldsWithSiteConstant : Prop :=
  (∀ idx : BitVec 4, encode (.mumc idx) = BitVec.ofNat 64 (0x20 + 256 * idx.toNat))
  ∧ ∀ (s : State) (idx : BitVec 4), s.err = .eNone → ∃ r : Vector Word 4,
    exec (.mumc idx) s = .next { s with res := some r }
    ∧ (∀ f : Fold, f = (if idx.toNat ≤ 7 then s.cfg.fold.fBlk else s.cfg.fold.fTail) →
        (f = .xor → r[0] = mumx s.opa[0] s.cfg.c[idx.toFin]) ∧ (f = .add → r[0] = muma s.opa[0] s.cfg.c[idx.toFin]))
    ∧ r[1] = 0 ∧ r[2] = 0 ∧ r[3] = 0

/-- 40_primitives.md R71, R77: the synthesised products are the native ones, bit for bit, so `CFG.NMUL` is
unobservable. -/
def Obligations.SynthesisedProductsAreExact : Prop :=
  (∀ x y : Word, (mulw64Synth x y).toNat = x.toNat * y.toNat)
  ∧ ∀ x y : DWord, (mulw128Synth x y).toNat = x.toNat * y.toNat

/-- 40_primitives.md R72 to R75, R78 to R80: what each fold and accumulation computes, from the exact product; then
R89 (a), (b), (c), (e), (g). -/
def Obligations.MultiplyFoldLaws : Prop :=
  (∀ s m : Word, acc .xor s m = s ^^^ m)
  ∧ (∀ s m : Word, (acc .add s m).toNat = (s.toNat + m.toNat) % 2 ^ 64)
  ∧ (∀ (x y : Word) (p : Nat), p = x.toNat * y.toNat →
      (mum .xor x y).toNat = (p / 2 ^ 64) ^^^ (p % 2 ^ 64)
      ∧ (mum .add x y).toNat = (p / 2 ^ 64 + p % 2 ^ 64) % 2 ^ 64)
  ∧ (∀ x y : Word, mum .xor x y = mumx x y ∧ mum .add x y = muma x y)
  ∧ (∀ (x y : DWord) (p : Nat), p = x.toNat * y.toNat →
      (mum128 .xor x y).toNat = (p / 2 ^ 128) ^^^ (p % 2 ^ 128)
      ∧ (mum128 .add x y).toNat = (p / 2 ^ 128 + p % 2 ^ 128) % 2 ^ 128)
  ∧ (∀ (a b : Word) (p : Nat), p = a.toNat % 2 ^ 32 * (b.toNat % 2 ^ 32) →
      (mum32 a b).toNat = (p / 2 ^ 32) ^^^ (p % 2 ^ 32))
  ∧ (∀ (f : Fold) (x y : Word), mum f x y = mum f y x)
  ∧ (∀ (f : Fold) (x y : DWord), mum128 f x y = mum128 f y x)
  ∧ (∀ a b : Word, mum32 a b = mum32 b a)
  ∧ (∀ (f : Fold) (y : Word), mum f 0 y = 0)
  ∧ (∀ (f : Fold) (y : DWord), mum128 f 0 y = 0)
  ∧ (∀ a b : Word, a.extractLsb' 0 32 = 0 ∨ b.extractLsb' 0 32 = 0 → mum32 a b = 0)
  ∧ (∀ (f : Fold) (y : Word), mum f 1 y = y)
  ∧ (∀ f : Fold, mum f (BitVec.allOnes 64) (BitVec.allOnes 64) = BitVec.allOnes 64)
  ∧ mumx 0x100000000 0x100000000 = 1 ∧ mumx 0x8000000000000000 2 = 1 ∧ mumx 1 1 = 1

/-- 40_primitives.md R89 (f), (h), from R72 and R73. The halves of a product fold alike by xor and by addition exactly
when they share no one bit below bit 63: doubling a shared bit 63 leaves the 64 bits. R89 (f) says "differ exactly
when hi64 AND lo64 ≠ 0", and the second clause shows the products that refute its right-to-left reading (log entry
23). Both folds absorb every operand but 0 into all ones. -/
def Obligations.FoldsDifferAndAllOnesAbsorbs : Prop :=
  (∀ x y : Word, mumx x y ≠ muma x y ↔
    ∃ k : Nat, k < 63 ∧ (hi64 (mulw64 x y)).getLsbD k = true ∧ (lo64 (mulw64 x y)).getLsbD k = true)
  ∧ (∀ x y : Word, x = 0x85e0200000000000 → y = 0xf4c3c67344040000 →
      mulw64 x y = 0x80000000000000008000000000000000 ∧ mumx x y = muma x y)
  ∧ ∀ (f : Fold) (y : Word), y ≠ 0 → mum f (BitVec.allOnes 64) y = BitVec.allOnes 64

/-! ### Stage commands -/

/-- 41_block_tail_final.md R91 with R90: `HINIT`, legal in every phase, latches the key, and the length and the seed
enter `ST` before any key byte. -/
def Obligations.HinitOpensHash : Prop :=
  encode .hinit = 0x30 ∧ ∀ s : State, s.err = .eNone →
    s.klen.toNat ≤ s.cfg.lmax.toNat → s.kbase.toNat + s.klen.toNat ≤ 2 ^ 64 →
    exec .hinit s = .next { s with
      lbase := s.kbase, llen := s.klen, cur := 0, vs := #v[0, 0, 0, 0],
      st := some (mum s.cfg.fold.fInit (s.seed ^^^ s.cfg.cInit) (s.klen ^^^ s.cfg.cLen)),
      ph := if 512 ≤ s.klen.toNat then .vec else .blk,
      digest := none }

/-- 42_vector_layer.md R109: `VMIX` consumes the next 128 key bytes into `VS`, and touches nothing else. -/
def Obligations.VmixConsumesVectorBlock : Prop :=
  encode .vmix = 0x31 ∧ ∀ (s : State) (b : List Byte), s.err = .eNone →
    s.ph = .vec → 128 ≤ s.llen.toNat - s.cur.toNat →
    b.length = 128 → KeyHolds s.mem (s.lbase.toNat + s.cur.toNat) b →
    exec .vmix s = .next { s with
      vs := vecBlock s.cfg s.vs (leWords 16 b), cur := s.cur + 128,
      keyReads := s.keyReads ++ List.range' (s.lbase.toNat + s.cur.toNat) 128 }

/-- 42_vector_layer.md R111 with R110: `VRED` folds the four lanes into `ST`, in lane order. -/
def Obligations.VredReducesVectorState : Prop :=
  encode .vred = 0x32 ∧ ∀ (s : State) (x : Word), s.err = .eNone →
    s.ph = .vec → s.llen.toNat - s.cur.toNat < 128 → s.st = some x →
    ∀ (a : Fold) (m : Fin 4 → Word),
      a = s.cfg.fold.aVred → (∀ i : Fin 4, m i = mum s.cfg.fold.fVred s.vs[i] s.cfg.cvr[i]) →
      exec .vred s = .next { s with st := some (acc a (acc a (acc a (acc a x (m 0)) (m 1)) (m 2)) (m 3)), ph := .blk }

/-- 41_block_tail_final.md R94: `BMIX` consumes the next 64 key bytes into `ST`, and touches nothing else. -/
def Obligations.BmixConsumesBlock : Prop :=
  encode .bmix = 0x33 ∧ ∀ (s : State) (x : Word) (b : List Byte), s.err = .eNone →
    s.ph = .blk → 64 ≤ s.llen.toNat - s.cur.toNat → s.st = some x →
    b.length = 64 → KeyHolds s.mem (s.lbase.toNat + s.cur.toNat) b →
    exec .bmix s = .next { s with
      st := some (blockMix s.cfg x (leWords 8 b)), cur := s.cur + 64,
      keyReads := s.keyReads ++ List.range' (s.lbase.toNat + s.cur.toNat) 64 }

/-- 41_block_tail_final.md R97: `TMIX` consumes exactly the bytes that are left. -/
def Obligations.TmixConsumesTail : Prop :=
  encode .tmix = 0x34 ∧ ∀ (s : State) (x : Word) (t : List Byte), s.err = .eNone →
    s.ph = .blk → s.llen.toNat - s.cur.toNat < 64 → s.st = some x →
    t.length = s.llen.toNat - s.cur.toNat → KeyHolds s.mem (s.lbase.toNat + s.cur.toNat) t →
    exec .tmix s = .next { s with
      st := some (tailMix s.cfg x t), cur := s.llen, ph := .fin,
      keyReads := s.keyReads ++ List.range' (s.lbase.toNat + s.cur.toNat) t.length }

/-- 41_block_tail_final.md R99 with R98: `HFIN` writes the digest and destroys `ST`. -/
def Obligations.HfinWritesDigest : Prop :=
  encode .hfin = 0x35 ∧ ∀ (s : State) (x : Word), s.err = .eNone → s.ph = .fin → s.st = some x →
    exec .hfin s = .next { s with
      digest := some (mum s.cfg.fold.fFin x s.cfg.cFinal), st := none, ph := .idle }

/-- 41_block_tail_final.md R100, 60_exceptions.md R151, R152: a stage command whose precondition is false records
`E_SEQ`, closes the sequence and does nothing else. -/
def Obligations.OutOfOrderStageRaisesSeq : Prop :=
  ∀ (s : State) (i : Instr), s.err = .eNone →
    ((i = .vmix ∧ ¬(s.ph = .vec ∧ 128 ≤ s.llen.toNat - s.cur.toNat))
      ∨ (i = .vred ∧ ¬(s.ph = .vec ∧ s.llen.toNat - s.cur.toNat < 128))
      ∨ (i = .bmix ∧ ¬(s.ph = .blk ∧ 64 ≤ s.llen.toNat - s.cur.toNat))
      ∨ (i = .tmix ∧ ¬(s.ph = .blk ∧ s.llen.toNat - s.cur.toNat < 64))
      ∨ (i = .hfin ∧ s.ph ≠ .fin)) →
    exec i s = .next { s with
      err := .eSeq, errinfo := encode i, erraddr := 0, st := none, ph := .idle }

/-- 20_memory.md R42, 60_exceptions.md R152, R155: a stage command that meets an invalid key address records the
lowest one; `VS` and `CUR` keep their values, `ST` is destroyed. -/
def Obligations.StageKeyFaultRecorded : Prop :=
  ∀ (s : State) (i : Instr) (n k : Nat), s.err = .eNone →
    ((i = .vmix ∧ s.ph = .vec ∧ 128 ≤ s.llen.toNat - s.cur.toNat ∧ n = 128)
      ∨ (i = .bmix ∧ s.ph = .blk ∧ 64 ≤ s.llen.toNat - s.cur.toNat ∧ n = 64)
      ∨ (i = .tmix ∧ s.ph = .blk ∧ s.llen.toNat - s.cur.toNat < 64 ∧ n = s.llen.toNat - s.cur.toNat)) →
    k < n → FirstInvalid s.mem (s.lbase.toNat + s.cur.toNat) k →
    exec i s = .next { s with
      err := .eKeyFault, errinfo := encode i,
      erraddr := BitVec.ofNat 64 (s.lbase.toNat + s.cur.toNat + k), st := none, ph := .idle,
      keyReads := s.keyReads ++ List.range' (s.lbase.toNat + s.cur.toNat) k }

/-- 20_memory.md R47, 60_exceptions.md R151, R152: a key too long, or reaching past the end of the key space, is
refused before any other effect. -/
def Obligations.BadRangeRaisesRange : Prop :=
  ∀ (s : State) (i : Instr), s.err = .eNone → i ∈ ([.hinit, .hash64, .vhash64, .hash512] : List Instr) →
    s.klen.toNat > s.cfg.lmax.toNat ∨ s.kbase.toNat + s.klen.toNat > 2 ^ 64 →
    exec i s = .next { s with
      err := .eRange, errinfo := encode i, erraddr := 0, st := none, ph := .idle }

/-! ### The mixers -/

/-- 41_block_tail_final.md R92: word `j` meets `C[j]`, in order. -/
def Obligations.BlockMixWordByWord : Prop :=
  ∀ (c : Cfg) (s : Word) (w : Vector Word 8),
    blockMix c s w.toList
      = (List.finRange 8).foldl
          (fun x j => acc c.fold.aBlk x (mum c.fold.fBlk w[j] (c.c[j.val]'(by omega)))) s

/-- 41_block_tail_final.md R95: the full words of the tail, then the partial word, each against `C[8 + i]`; nothing
is mixed for an empty tail. -/
def Obligations.TailMixGroupByGroup : Prop :=
  ∀ (c : Cfg) (s : Word) (t : List Byte) (nw r : Nat), t.length ≤ 63 → nw = t.length / 8 → r = t.length % 8 →
    ∀ full : Word,
      full = (List.range nw).foldl
        (fun x i => acc c.fold.aTail x
          (mum c.fold.fTail (BitVec.ofNat 64 (le ((t.drop (8 * i)).take 8))) (c.c.toList.getD (8 + i) 0))) s →
      tailMix c s t
        = if r ≠ 0 then
            acc c.fold.aTail full
              (mum c.fold.fTail (BitVec.ofNat 64 (le (t.drop (8 * nw)))) (c.c.toList.getD (8 + nw) 0))
          else full

/-- 42_vector_layer.md R106: lane `l` collects the terms of words `l, l+4, l+8, l+12`, each folded from the word xored
with its constant; bits `[63:32]` of a lane that are 0 stay 0. -/
def Obligations.VectorBlockLaneByLane : Prop :=
  ∀ (c : Cfg) (vs : Vector Word 4) (w : Vector Word 16) (t : Fin 16 → Word),
    (∀ m : Fin 16, t m = mum32 (w[m] ^^^ c.c[m]) ((w[m] ^^^ c.c[m]) >>> 32)) →
    vecBlock c vs w.toList
      = #v[vs[0] ^^^ t 0 ^^^ t 4 ^^^ t 8 ^^^ t 12, vs[1] ^^^ t 1 ^^^ t 5 ^^^ t 9 ^^^ t 13,
           vs[2] ^^^ t 2 ^^^ t 6 ^^^ t 10 ^^^ t 14, vs[3] ^^^ t 3 ^^^ t 7 ^^^ t 11 ^^^ t 15]
      ∧ ((∀ i : Fin 4, vs[i].toNat < 2 ^ 32) → ∀ i : Fin 4, (vecBlock c vs w.toList)[i].toNat < 2 ^ 32)

/-- 42_vector_layer.md R107, R108: four steps of a 256-bit unit, eight of a 128-bit unit and sixteen of the scalar
fallback compute the same vector state. -/
def Obligations.VectorWidthsAgree : Prop :=
  ∀ (c : Cfg) (vs : Vector Word 4) (w : List Word), w.length = 16 →
    vecTerms256 vs (w.zip c.c.toList) = vecBlock c vs w
    ∧ ∀ p : (Word × Word) × (Word × Word),
        p = vecTerms128 (vs[0], vs[1]) (vs[2], vs[3]) (w.zip c.c.toList) →
        #v[p.1.1, p.1.2, p.2.1, p.2.2] = vecBlock c vs w

/-- 41_block_tail_final.md R93, 70_reset_and_hazards.md R178: the terms of one mixer may be computed and accumulated
in any order. -/
def Obligations.MixTermsCommute : Prop :=
  ∀ (f a : Fold) (s : Word) (p q : List (Word × Word)), p.Perm q → mixTerms f a s p = mixTerms f a s q

/-- 41_block_tail_final.md R94, R97, R102 (b), (c), (d): zero bytes contribute nothing under every profile; with
`a_blk = XOR` a block of all ones contributes nothing (the constants not being zero, as 10_state.md R13 (a) has it)
and a repeated block cancels. -/
def Obligations.NeutralAndCancellingBlocks : Prop :=
  (∀ (c : Cfg) (s : Word), blockMix c s (leWords 8 (List.replicate 64 0)) = s)
  ∧ (∀ (c : Cfg) (s : Word) (n : Nat), tailMix c s (List.replicate n 0) = s)
  ∧ (∀ (c : Cfg) (s : Word), c.fold.aBlk = .xor → (∀ j : Fin 16, c.c[j] ≠ 0) →
      blockMix c s (leWords 8 (List.replicate 64 0xff)) = s)
  ∧ ∀ (c : Cfg) (s : Word) (w : List Word), c.fold.aBlk = .xor → blockMix c (blockMix c s w) w = s

/-- 42_vector_layer.md R113 (b), (c): two identical vector blocks cancel, and a zero vector state adds nothing. -/
def Obligations.VectorPairsCancel : Prop :=
  (∀ (c : Cfg) (vs : Vector Word 4) (w : List Word), vecBlock c (vecBlock c vs w) w = vs)
  ∧ ∀ (c : Cfg) (s : Word), vecReduce c s #v[0, 0, 0, 0] = s

/-- 41_block_tail_final.md R102 (a): exchanging two neighbouring 64-byte blocks of a key below the vector gate does
not change the digest. -/
def Obligations.BlockOrderIrrelevant : Prop :=
  ∀ (c : Cfg) (seed : Word) (pre x y post : List Byte),
    pre.length % 64 = 0 → x.length = 64 → y.length = 64 → (pre ++ x ++ y ++ post).length < 512 →
    h64 c (pre ++ x ++ y ++ post) seed = h64 c (pre ++ y ++ x ++ post) seed

/-! ### Whole hashes -/

/-- 43_hash_drivers.md R115, R116, R117, R119: `HASH64` and `VHASH64` compute the pure function `H64` of the key
bytes, the length and the seed; they read each key byte once, ascending, and nothing else. -/
def Obligations.HashCommandComputesH64 : Prop :=
  ∀ (s : State) (i : Instr) (key : List Byte), s.err = .eNone → i = .hash64 ∨ i = .vhash64 →
    s.klen.toNat ≤ s.cfg.lmax.toNat → s.kbase.toNat + s.klen.toNat ≤ 2 ^ 64 →
    key.length = s.klen.toNat → KeyHolds s.mem s.kbase.toNat key →
    exec i s = .next { s with
      lbase := s.kbase, llen := s.klen, cur := s.klen, vs := vecState s.cfg key, st := none, ph := .idle,
      digest := some (h64 s.cfg key s.seed),
      keyReads := s.keyReads ++ List.range' s.kbase.toNat s.klen.toNat }

/-- 43_hash_drivers.md R118 (c), 30_encoding.md R62: the stage sequence `hash64.s`, run command by command, leaves
exactly the state that `HASH64` leaves. -/
def Obligations.StageSequenceEqualsHash64 : Prop :=
  ∀ (s : State) (rest : List HostEvent) (key : List Byte), s.err = .eNone →
    s.klen.toNat ≤ s.cfg.lmax.toNat → s.kbase.toNat + s.klen.toNat ≤ 2 ^ 64 →
    key.length = s.klen.toNat → KeyHolds s.mem s.kbase.toNat key →
    Host.Core.run Sys2Proof.core (stageSequence s.klen.toNat).length
        { s with inbox := cmdWrites (stageSequence s.klen.toNat) ++ rest }
      = exec .hash64 { s with inbox := rest }

/-- 43_hash_drivers.md R116, R117, 60_exceptions.md R151, R152, R155: a hash that meets an invalid key address records
the lowest one and the command's own word; the earlier digest is lost. What `VS` and `CUR` hold then is left open
(93_implementation_defined.md U7). -/
def Obligations.HashKeyFaultRecorded : Prop :=
  ∀ (s : State) (i : Instr) (k : Nat), s.err = .eNone → i = .hash64 ∨ i = .vhash64 →
    s.klen.toNat ≤ s.cfg.lmax.toNat → s.kbase.toNat + s.klen.toNat ≤ 2 ^ 64 →
    k < s.klen.toNat → FirstInvalid s.mem s.kbase.toNat k →
    ∃ (vs : Vector Word 4) (cur : Word), exec i s = .next { s with
      lbase := s.kbase, llen := s.klen, vs := vs, cur := cur, digest := none,
      err := .eKeyFault, errinfo := encode i, erraddr := BitVec.ofNat 64 (s.kbase.toNat + k),
      st := none, ph := .idle,
      keyReads := s.keyReads ++ List.range' s.kbase.toNat k }

/-- 44_mum512.md R131: `HASH512` writes `H512` of the key to `DIGEST512`, reads exactly the key, and touches nothing
of an open 64-bit hash. `H512` itself is spelled out by `Obligations.H512RoundByRound`. -/
def Obligations.Hash512ComputesH512 : Prop :=
  encode .hash512 = 0x44 ∧ ∀ (s : State) (key : List Byte), s.err = .eNone →
    s.klen.toNat ≤ s.cfg.lmax.toNat → s.kbase.toNat + s.klen.toNat ≤ 2 ^ 64 →
    key.length = s.klen.toNat → KeyHolds s.mem s.kbase.toNat key →
    exec .hash512 s = .next { s with
      digest512 := some (h512 s.cfg key s.seed512), st512 := none,
      keyReads := s.keyReads ++ List.range' s.kbase.toNat s.klen.toNat }

/-- 44_mum512.md R131, 60_exceptions.md R152, R155: `HASH512` on an invalid key address: `D512V = 0` and the error
entry, nothing else. -/
def Obligations.Hash512KeyFaultRecorded : Prop :=
  ∀ (s : State) (k : Nat), s.err = .eNone →
    s.klen.toNat ≤ s.cfg.lmax.toNat → s.kbase.toNat + s.klen.toNat ≤ 2 ^ 64 →
    k < s.klen.toNat → FirstInvalid s.mem s.kbase.toNat k →
    exec .hash512 s = .next { s with
      digest512 := none, st512 := none,
      err := .eKeyFault, errinfo := 0x44, erraddr := BitVec.ofNat 64 (s.kbase.toNat + k),
      st := none, ph := .idle,
      keyReads := s.keyReads ++ List.range' s.kbase.toNat k }

/-! ### Generators -/

/-- 45_prng_system.md R137, R139: seeding copies the seed register, zeroes the counter and invalidates the output. -/
def Obligations.SeedingRestartsGenerator : Prop :=
  encode .pseed = 0x50 ∧ encode .pseed512 = 0x54 ∧ ∀ s : State, s.err = .eNone →
    exec .pseed s = .next { s with pstate := some s.seed, pctr := 0, pout := none }
    ∧ exec .pseed512 s = .next { s with pstate512 := some s.seed512, pctr512 := 0, pout512 := none }

/-- 45_prng_system.md R138 with R136: `PNEXT` outputs `H64` of the eight bytes of state xor counter under the default
seed; unseeded it records `E_UNSEEDED`. -/
def Obligations.PnextOutputsHash : Prop :=
  encode .pnext = 0x51 ∧ ∀ s : State, s.err = .eNone →
    (∀ (x v : Word), s.pstate = some x →
      v = h64 s.cfg (leBytes (x ^^^ s.pctr)) s.cfg.seedDefault →
      exec .pnext s = .next { s with pout := some v, pstate := some v, pctr := s.pctr + 1 })
    ∧ (s.pstate = none → exec .pnext s = .next { s with
        err := .eUnseeded, errinfo := 0x51, erraddr := 0, st := none, ph := .idle })

/-- 45_prng_system.md R140: `PNEXT512` outputs `H512` of the 64 bytes of the state, the counter xored into limb 0,
under eight copies of the default seed; unseeded it records `E_UNSEEDED`. -/
def Obligations.Pnext512OutputsHash : Prop :=
  encode .pnext512 = 0x55 ∧ ∀ s : State, s.err = .eNone →
    (∀ (x v : Vector Word 8), s.pstate512 = some x →
      v = h512 s.cfg
        (leBytes (x[0] ^^^ s.pctr512) ++ leBytes x[1] ++ leBytes x[2] ++ leBytes x[3]
          ++ leBytes x[4] ++ leBytes x[5] ++ leBytes x[6] ++ leBytes x[7])
        (Vector.replicate 8 s.cfg.seedDefault) →
      exec .pnext512 s = .next { s with
        pout512 := some v, pstate512 := some v, pctr512 := s.pctr512 + 1, st512 := none })
    ∧ (s.pstate512 = none → exec .pnext512 s = .next { s with
        err := .eUnseeded, errinfo := 0x55, erraddr := 0, st := none, ph := .idle })

/-- 45_prng_system.md R136, R140: the closed forms. An 8-byte key is one tail word, so `HP` is one product between
initialisation and finalisation; a 64-byte key is one block with the views of the state as its words. -/
def Obligations.GeneratorHashClosedForms : Prop :=
  (∀ (c : Cfg) (x : Word),
    hp c x = h64 c ((List.range 8).map fun k => x.extractLsb' (8 * k) 8) c.seedDefault
    ∧ hp c x = mum c.fold.fFin
      (acc c.fold.aTail (mum c.fold.fInit (c.seedDefault ^^^ c.cInit) (8 ^^^ c.cLen)) (mum c.fold.fTail x c.c[8]))
      c.cFinal)
  ∧ ∀ (c : Cfg) (x : Vector Word 8) (ctr : Word) (u : Vector DWord 4),
      u = round512 c.fold.f512 (init512 c 64 (Vector.replicate 8 c.seedDefault))
        #v[x[1] ++ (x[0] ^^^ ctr), x[3] ++ x[2], x[5] ++ x[4], x[7] ++ x[6]] c.k512b →
      hp512 c x ctr = limbs (round512 c.fold.f512 u #v[0, 0, 0, 0] c.k512f)

/-- 45_prng_system.md R135, R137, R138: after `PSEED`, the `k`-th `PNEXT` returns the `k`-th term of the stream
`out_n = H(s_n ⊕ n)`, `s_{n+1} = out_n`, and the counter counts the outputs. -/
def Obligations.GeneratorStreamFollowsContract : Prop :=
  ∀ (s : State) (rest : List HostEvent) (k : Nat), s.err = .eNone →
    Host.Core.run Sys2Proof.core (k + 2)
        { s with inbox := cmdWrites (.pseed :: List.replicate (k + 1) .pnext) ++ rest }
      = .next { s with
          inbox := rest, pstate := some (generatorState s.cfg s.seed (k + 1)),
          pout := some (generatorState s.cfg s.seed (k + 1)), pctr := BitVec.ofNat 64 (k + 1) }

/-! ### The whole machine -/

/-- Every step keeps the invariant (41_block_tail_final.md R101, 10_state.md R26, R28, R29, 42_vector_layer.md R106,
45_prng_system.md R135, 60_exceptions.md R152; the clauses of `StateInv`). -/
def Obligations.StepKeepsInvariant : Prop :=
  ∀ s t : State, StateInv s → step s = .next t → StateInv t

/-- The state after reset has the invariant, for every configuration (10_state.md R33). -/
def Obligations.ResetHasInvariant : Prop :=
  (∀ c : Cfg, StateInv (State.resetWith c)) ∧ StateInv State.reset

/-- 41_block_tail_final.md R101, 43_hash_drivers.md R120, 70_reset_and_hazards.md R172: from a state with the
invariant every run goes on, whatever the host does: no step meets an invalid `ST`, and nothing is refused. So from
reset, with any configuration, key space and host program, `ST` is valid exactly while `PH ≠ IDLE`. -/
def Obligations.EveryRunProceeds : Prop :=
  (∀ (s : State) (n : Nat), StateInv s → ∃ t : State, Host.Core.run Sys2Proof.core n s = .next t ∧ StateInv t)
  ∧ ∀ (c : Cfg) (m : Memory) (host : List HostEvent) (n : Nat), Memory.wf m = true →
      ∃ t : State, Host.Core.run Sys2Proof.core n { State.resetWith c with mem := m, inbox := host } = .next t
        ∧ (t.st.isSome = true ↔ t.ph ≠ .idle)

/-- 10_state.md R12, R16, R18 to R20, 20_memory.md R40: no command writes the configuration, the key space or the
host's records, and none but `SRST` writes an operand, seed or key register. -/
def Obligations.CommandsKeepInputs : Prop :=
  ∀ (i : Instr) (s t : State), exec i s = .next t →
    t.cfg = s.cfg ∧ t.mem = s.mem ∧ t.inbox = s.inbox ∧ t.hostReads = s.hostReads ∧ t.freeCtr = s.freeCtr
    ∧ (i ≠ .srst → t.seed = s.seed ∧ t.kbase = s.kbase ∧ t.klen = s.klen ∧ t.opa = s.opa ∧ t.opb = s.opb
        ∧ t.seed512 = s.seed512)

/-- 45_prng_system.md R144, 10_state.md R25: the state groups do not interfere. A primitive writes `RES` alone; the
64-bit hash commands write only the hash and sequencing state and `DIGEST`; `HASH512` only `DIGEST512`; a generator's
commands only that generator; beside these there are the error record, and the event history of key reads. The one
coupling is an error, which destroys `ST` and closes the sequence. -/
def Obligations.StateGroupsIsolated : Prop :=
  ∀ (i : Instr) (s t : State), exec i s = .next t →
    (isPrimitive i = true → t = { s with res := t.res })
    ∧ (isHash i = true → t = { s with
        digest := t.digest, st := t.st, vs := t.vs, ph := t.ph, cur := t.cur, lbase := t.lbase, llen := t.llen,
        err := t.err, errinfo := t.errinfo, erraddr := t.erraddr, keyReads := t.keyReads })
    ∧ (i = .hash512 → t = { s with
        digest512 := t.digest512, st512 := t.st512, st := t.st, ph := t.ph,
        err := t.err, errinfo := t.errinfo, erraddr := t.erraddr, keyReads := t.keyReads })
    ∧ (i = .pseed ∨ i = .pnext → t = { s with
        pstate := t.pstate, pctr := t.pctr, pout := t.pout, st := t.st, ph := t.ph,
        err := t.err, errinfo := t.errinfo, erraddr := t.erraddr })
    ∧ (i = .pseed512 ∨ i = .pnext512 → t = { s with
        pstate512 := t.pstate512, pctr512 := t.pctr512, pout512 := t.pout512, st512 := t.st512, st := t.st, ph := t.ph,
        err := t.err, errinfo := t.errinfo, erraddr := t.erraddr })
    ∧ (i ≠ .srst → t.err ≠ s.err → s.err = .eNone ∧ t.st = none ∧ t.ph = .idle)
    ∧ (i ≠ .srst → isHash i = false → t.err = s.err →
        t.st = s.st ∧ t.ph = s.ph ∧ t.errinfo = s.errinfo ∧ t.erraddr = s.erraddr)

/-- 00_scope.md R5, 42_vector_layer.md R108, 93_implementation_defined.md U8: `VLEN`, `STRICT_ALIGN` and `NATIVE_MUL`
change nothing that a command does. -/
def Obligations.ImplementationParametersUnobservable : Prop :=
  ∀ (i : Instr) (s : State) (vlen : VLen) (salign nmul : Bool),
    exec i (s.withImpl vlen salign nmul) = mapNext (fun t => t.withImpl vlen salign nmul) (exec i s)

/-- 20_memory.md R44, R45, 70_reset_and_hazards.md R180, R181: whatever a command does, an error included, the only
addresses it reads are valid addresses of the key it works on: `KBASE` and `KLEN` for a one-shot hash, the latched
`LBASE` and `LLEN` for a stage command. The bytes next to the key are never touched. That the reads before a key fault
are in the history is the model's choice (log entry 7); no register a fault leaves behind is spoken of. -/
def Obligations.KeyReadsStayInsideKey : Prop :=
  ∀ (i : Instr) (s t : State), exec i s = .next t →
    ∃ as : List Nat, t.keyReads = s.keyReads ++ as
      ∧ ∀ a ∈ as, (Memory.read s.mem a).isSome = true
          ∧ (i ∈ ([.hash64, .vhash64, .hash512] : List Instr) →
              s.kbase.toNat ≤ a ∧ a < s.kbase.toNat + s.klen.toNat)
          ∧ (i ∉ ([.hash64, .vhash64, .hash512] : List Instr) →
              i ∈ ([.vmix, .bmix, .tmix] : List Instr) ∧ s.lbase.toNat ≤ a ∧ a < s.lbase.toNat + s.llen.toNat)

/-! ### The 512-bit hash -/

/-- 44_mum512.md R125 to R130: one round writes `U[q] ⊕ MUM128(f, U[q] ⊕ W[q], U[(q+1) mod 4] ⊕ K[q])` for every `q`,
all from the old `U`; initialisation gives every view its product of seed and length; `H512` of a key of any length is
initialisation, a round with `K512B` for each full block of four `LE` words of 16 bytes, one zero-padded round with
`K512T` exactly when bytes are left, a last round with `K512F` and zero words, and the views' halves, low half of view 0
first. What `mum128` and `le` compute is `Obligations.MultiplyFoldLaws` and `Obligations.WindowBytesLittleEndian`. -/
def Obligations.H512RoundByRound : Prop :=
  (∀ (f : Fold) (u w k : Vector DWord 4) (q : Fin 4),
    (round512 f u w k)[q] = u[q] ^^^ mum128 f (u[q] ^^^ w[q]) (u[Fin.ofNat 4 (q.val + 1)] ^^^ k[q]))
  ∧ (∀ (c : Cfg) (len : Word) (seed : Vector Word 8) (q : Fin 4),
      (init512 c len seed)[q]
        = mum128 c.fold.f512
            ((seed[Fin.ofNat 8 (2 * q.val + 1)] ++ seed[Fin.ofNat 8 (2 * q.val)]) ^^^ c.k512i[q])
            (len.setWidth 128 ^^^ c.k512l[q]))
  ∧ ∀ (c : Cfg) (key : List Byte) (seed : Vector Word 8), key.length < 2 ^ 64 →
      ∀ words : List Byte → Vector DWord 4,
        words = (fun b => Vector.ofFn fun q : Fin 4 => BitVec.ofNat 128 (le ((b.drop (16 * q.val)).take 16))) →
      ∀ u v x : Vector DWord 4,
        u = (List.range (key.length / 64)).foldl
              (fun u b => round512 c.fold.f512 u (words (key.drop (64 * b))) c.k512b)
              (init512 c (BitVec.ofNat 64 key.length) seed) →
        v = (if key.length % 64 ≠ 0 then
              round512 c.fold.f512 u
                (words (key.drop (64 * (key.length / 64)) ++ List.replicate (64 - key.length % 64) 0)) c.k512t
            else u) →
        x = round512 c.fold.f512 v #v[0, 0, 0, 0] c.k512f →
        ∀ q : Fin 4,
          (h512 c key seed)[Fin.ofNat 8 (2 * q.val)] = x[q].extractLsb' 0 64
          ∧ (h512 c key seed)[Fin.ofNat 8 (2 * q.val + 1)] = x[q].extractLsb' 64 64
end

