-- ==== Sys2Proof/Laws/Arith.lean ====
section
/-! SUPPORT. The arithmetic functions as numbers, and vectors of fixed length as lists of their entries: the lemmas
that carry a statement from bit vectors to the natural numbers. -/

namespace Sys2Proof.Machine

theorem hi64_toNat (d : DWord) : (hi64 d).toNat = d.toNat / 2 ^ 64 := by
  unfold hi64
  rw [BitVec.extractLsb'_toNat, Nat.shiftRight_eq_div_pow]
  have := d.isLt
  omega

theorem lo64_toNat (d : DWord) : (lo64 d).toNat = d.toNat % 2 ^ 64 := by
  unfold lo64
  rw [BitVec.extractLsb'_toNat]
  simp

theorem hi128_toNat (d : QWord) : (hi128 d).toNat = d.toNat / 2 ^ 128 := by
  unfold hi128
  rw [BitVec.extractLsb'_toNat, Nat.shiftRight_eq_div_pow]
  have := d.isLt
  omega

theorem lo128_toNat (d : QWord) : (lo128 d).toNat = d.toNat % 2 ^ 128 := by
  unfold lo128
  rw [BitVec.extractLsb'_toNat]
  simp

theorem hi32_toNat (d : Word) : (hi32 d).toNat = d.toNat / 2 ^ 32 := by
  unfold hi32
  rw [BitVec.extractLsb'_toNat, Nat.shiftRight_eq_div_pow]
  have := d.isLt
  omega

theorem lo32_toNat (d : Word) : (lo32 d).toNat = d.toNat % 2 ^ 32 := by
  unfold lo32
  rw [BitVec.extractLsb'_toNat]
  simp

/-- The 64×64 product is exact (40_primitives.md R70). -/
theorem mulw64_toNat (x y : Word) : (mulw64 x y).toNat = x.toNat * y.toNat := by
  unfold mulw64
  rw [BitVec.toNat_ofNat, Nat.mod_eq_of_lt]
  calc x.toNat * y.toNat < 2 ^ 64 * 2 ^ 64 := Nat.mul_lt_mul'' x.isLt y.isLt
    _ = 2 ^ 128 := by norm_num

/-- The 128×128 product is exact (40_primitives.md R76). -/
theorem mulw128_toNat (x y : DWord) : (mulw128 x y).toNat = x.toNat * y.toNat := by
  unfold mulw128
  rw [BitVec.toNat_ofNat, Nat.mod_eq_of_lt]
  calc x.toNat * y.toNat < 2 ^ 128 * 2 ^ 128 := Nat.mul_lt_mul'' x.isLt y.isLt
    _ = 2 ^ 256 := by norm_num

theorem append64_toNat (x y : Word) : (x ++ y : DWord).toNat = y.toNat + 2 ^ 64 * x.toNat := by
  rw [BitVec.toNat_append, ← Nat.shiftLeft_add_eq_or_of_lt y.isLt, Nat.shiftLeft_eq]
  omega

theorem operandA_toNat (s : State) : (operandA s).toNat = s.opa[0].toNat + 2 ^ 64 * s.opa[1].toNat :=
  append64_toNat _ _

theorem operandB_toNat (s : State) : (operandB s).toNat = s.opb[0].toNat + 2 ^ 64 * s.opb[1].toNat :=
  append64_toNat _ _

theorem byteLane_toNat (v : Word) (k : Nat) : (byteLane v k).toNat = v.toNat / 2 ^ (8 * k) % 256 := by
  unfold byteLane
  rw [BitVec.extractLsb'_toNat, Nat.shiftRight_eq_div_pow]

theorem le_append (a b : List Byte) : le (a ++ b) = le a + 256 ^ a.length * le b := by
  induction a with
  | nil => simp [le]
  | cons x a ih =>
    simp only [List.cons_append, le, ih, List.length_cons]
    ring

theorem le_lt (b : List Byte) : le b < 256 ^ b.length := by
  induction b with
  | nil => simp [le]
  | cons x b ih =>
    have := x.isLt
    simp only [le, List.length_cons, pow_succ]
    omega

theorem leWords_eq_map (n : Nat) (t : List Byte) :
    leWords n t = (List.range n).map fun i => leWord ((t.drop (8 * i)).take 8) := by
  induction n generalizing t with
  | zero => rfl
  | succ n ih =>
    rw [leWords, ih, List.range_succ_eq_map]
    simp [List.drop_drop, Nat.mul_add, Nat.add_comm]

theorem toList_four {α : Type} (w : Vector α 4) : w.toList = [w[0], w[1], w[2], w[3]] := by
  obtain ⟨⟨l⟩, h⟩ := w
  simp only [List.size_toArray] at h
  match l, h with
  | [_, _, _, _], _ => rfl

theorem toList_eight {α : Type} (w : Vector α 8) :
    w.toList = [w[0], w[1], w[2], w[3], w[4], w[5], w[6], w[7]] := by
  obtain ⟨⟨l⟩, h⟩ := w
  simp only [List.size_toArray] at h
  match l, h with
  | [_, _, _, _, _, _, _, _], _ => rfl

theorem toList_sixteen {α : Type} (w : Vector α 16) :
    w.toList = [w[0], w[1], w[2], w[3], w[4], w[5], w[6], w[7],
      w[8], w[9], w[10], w[11], w[12], w[13], w[14], w[15]] := by
  obtain ⟨⟨l⟩, h⟩ := w
  simp only [List.size_toArray] at h
  match l, h with
  | [_, _, _, _, _, _, _, _, _, _, _, _, _, _, _, _], _ => rfl

theorem eq_four {α : Type} (w : Vector α 4) : w = #v[w[0], w[1], w[2], w[3]] := by
  apply Vector.toList_inj.mp
  rw [toList_four]
  rfl

/-- Two terms may be accumulated in either order (41_block_tail_final.md R93). -/
theorem acc_right_comm (a : Fold) (s x y : Word) : acc a (acc a s x) y = acc a (acc a s y) x := by
  cases a with
  | xor =>
    show s ^^^ x ^^^ y = s ^^^ y ^^^ x
    rw [BitVec.xor_assoc, BitVec.xor_comm x y, ← BitVec.xor_assoc]
  | add =>
    show s + x + y = s + y + x
    ring

@[simp] theorem acc_zero (a : Fold) (s : Word) : acc a s 0 = s := by
  cases a <;> simp [acc]

theorem mixTerms_append (f a : Fold) (s : Word) (p q : List (Word × Word)) :
    mixTerms f a s (p ++ q) = mixTerms f a (mixTerms f a s p) q := by
  simp [mixTerms]

theorem xorLane_zero (a b c d t : Word) : xorLane #v[a, b, c, d] 0 t = #v[a ^^^ t, b, c, d] := rfl
theorem xorLane_one (a b c d t : Word) : xorLane #v[a, b, c, d] 1 t = #v[a, b ^^^ t, c, d] := rfl
theorem xorLane_two (a b c d t : Word) : xorLane #v[a, b, c, d] 2 t = #v[a, b, c ^^^ t, d] := rfl
theorem xorLane_three (a b c d t : Word) : xorLane #v[a, b, c, d] 3 t = #v[a, b, c, d ^^^ t] := rfl

/-- Four words of a vector block, one to each lane (42_vector_layer.md R106). -/
theorem vecTerms_four (m : Nat) (hm : m % 4 = 0) (a b c d : Word) (p0 p1 p2 p3 : Word × Word)
    (r : List (Word × Word)) :
    vecTerms m #v[a, b, c, d] (p0 :: p1 :: p2 :: p3 :: r)
      = vecTerms (m + 4) #v[a ^^^ vecTerm p0.1 p0.2, b ^^^ vecTerm p1.1 p1.2,
          c ^^^ vecTerm p2.1 p2.2, d ^^^ vecTerm p3.1 p3.2] r := by
  have e0 : Fin.ofNat 4 m = 0 := by ext; simpa using hm
  have e1 : Fin.ofNat 4 (m + 1) = 1 := by ext; simp; omega
  have e2 : Fin.ofNat 4 (m + 1 + 1) = 2 := by ext; simp; omega
  have e3 : Fin.ofNat 4 (m + 1 + 1 + 1) = 3 := by ext; simp; omega
  simp only [vecTerms, e0, e1, e2, e3, xorLane_zero, xorLane_one, xorLane_two, xorLane_three]

/-- An address or a position moved on without wrapping. -/
theorem add_ofNat_toNat {x : Word} {n : Nat} (h : x.toNat + n < 2 ^ 64) :
    (x + BitVec.ofNat 64 n).toNat = x.toNat + n := by
  rw [BitVec.toNat_add, BitVec.toNat_ofNat]
  omega

end Sys2Proof.Machine
end

