-- ==== Sys2Proof/Laws/Memory.lean ====
section
/-! SUPPORT. The key space: every operation keeps the canonical form, what a change does to a read, and what a read
of several bytes is. -/

namespace Sys2Proof.Machine

theorem Memory.rising_cons (x : Nat) (c : Byte) (m : Memory) :
    Memory.rising ((x, c) :: m) = true ↔ (∀ p ∈ m, x < p.1) ∧ Memory.rising m = true := by
  simp [Memory.rising]

theorem Memory.wf_iff (m : Memory) :
    Memory.wf m = true ↔ Memory.rising m = true ∧ ∀ p ∈ m, p.1 < 2 ^ 64 := by
  simp [Memory.wf]

/-- Nothing is found below every listed address. -/
theorem Memory.read_below {m : Memory} {a : Nat} (h : ∀ p ∈ m, a < p.1) : Memory.read m a = none := by
  induction m with
  | nil => rfl
  | cons p m ih =>
    have hp : a < p.1 := h p (by simp)
    simp only [Memory.read, if_neg (Nat.ne_of_lt hp)]
    exact ih fun q hq => h q (by simp [hq])

theorem Memory.mem_put {m : Memory} {a : Nat} {b : Byte} {p : Host.Cell} (h : p ∈ Memory.put m a b) :
    p = (a, b) ∨ p ∈ m := by
  induction m with
  | nil => simp [Memory.put] at h; exact .inl h
  | cons q m ih =>
    obtain ⟨x, c⟩ := q
    simp only [Memory.put] at h
    split at h
    · simpa using h
    · split at h
      · rcases List.mem_cons.mp h with h | h <;> simp [h]
      · rcases List.mem_cons.mp h with h | h
        · simp [h]
        · rcases ih h with h | h <;> simp [h]

theorem Memory.mem_drop {m : Memory} {a : Nat} {p : Host.Cell} (h : p ∈ Memory.drop m a) : p ∈ m := by
  induction m with
  | nil => simp [Memory.drop] at h
  | cons q m ih =>
    simp only [Memory.drop] at h
    split at h
    · exact List.mem_cons_of_mem _ (ih h)
    · rcases List.mem_cons.mp h with h | h
      · simp [h]
      · exact List.mem_cons_of_mem _ (ih h)

theorem Memory.put_rising {m : Memory} (a : Nat) (b : Byte) (h : Memory.rising m = true) :
    Memory.rising (Memory.put m a b) = true := by
  induction m with
  | nil => rfl
  | cons q m ih =>
    obtain ⟨x, c⟩ := q
    obtain ⟨hx, hm⟩ := (Memory.rising_cons x c m).mp h
    simp only [Memory.put]
    split
    · rename_i hax
      refine (Memory.rising_cons ..).mpr ⟨fun p hp => ?_, h⟩
      rcases List.mem_cons.mp hp with rfl | hp
      · exact hax
      · exact Nat.lt_trans hax (hx p hp)
    · split
      · rename_i hax
        exact (Memory.rising_cons ..).mpr ⟨fun p hp => hax ▸ hx p hp, hm⟩
      · refine (Memory.rising_cons ..).mpr ⟨fun p hp => ?_, ih hm⟩
        rcases Memory.mem_put hp with rfl | hp
        · show x < a
          omega
        · exact hx p hp

theorem Memory.drop_rising {m : Memory} (a : Nat) (h : Memory.rising m = true) :
    Memory.rising (Memory.drop m a) = true := by
  induction m with
  | nil => rfl
  | cons q m ih =>
    obtain ⟨x, c⟩ := q
    obtain ⟨hx, hm⟩ := (Memory.rising_cons x c m).mp h
    simp only [Memory.drop]
    split
    · exact ih hm
    · exact (Memory.rising_cons ..).mpr ⟨fun p hp => hx p (Memory.mem_drop hp), ih hm⟩

/-- The one operation that changes the key space keeps its canonical form. -/
theorem Memory.set_wf {m : Memory} {a : Nat} (b : Option Byte) (ha : a < 2 ^ 64) (h : Memory.wf m = true) :
    Memory.wf (Memory.set m a b) = true := by
  obtain ⟨hr, hb⟩ := (Memory.wf_iff m).mp h
  cases b with
  | none => exact (Memory.wf_iff _).mpr ⟨Memory.drop_rising a hr, fun p hp => hb p (Memory.mem_drop hp)⟩
  | some b =>
    refine (Memory.wf_iff _).mpr ⟨Memory.put_rising a b hr, fun p hp => ?_⟩
    rcases Memory.mem_put hp with rfl | hp
    · exact ha
    · exact hb p hp

theorem State.setKeyByte_wf {s : State} (a : Word) (b : Option Byte) (h : Memory.wf s.mem = true) :
    Memory.wf (Memory.set s.mem a.toNat b) = true :=
  Memory.set_wf b a.isLt h

/-- The key space of the reset state has the canonical form. -/
theorem reset_memory_wf : Memory.wf State.reset.mem = true := rfl

theorem Memory.read_put {m : Memory} (a x : Nat) (b : Byte) (h : Memory.rising m = true) :
    Memory.read (Memory.put m a b) x = if x = a then some b else Memory.read m x := by
  induction m with
  | nil => simp [Memory.put, Memory.read]
  | cons q m ih =>
    obtain ⟨y, c⟩ := q
    obtain ⟨hy, hm⟩ := (Memory.rising_cons y c m).mp h
    simp only [Memory.put]
    split
    · simp [Memory.read]
    · split
      · rename_i hay
        by_cases hxa : x = a <;> simp [Memory.read, hxa, ← hay]
      · simp only [Memory.read, ih hm]
        by_cases hxy : x = y
        · subst hxy
          simp [show x ≠ a by omega]
        · simp [hxy]

theorem Memory.read_drop {m : Memory} (a x : Nat) :
    Memory.read (Memory.drop m a) x = if x = a then none else Memory.read m x := by
  induction m with
  | nil => simp [Memory.drop, Memory.read]
  | cons q m ih =>
    obtain ⟨y, c⟩ := q
    simp only [Memory.drop]
    split
    · rename_i hay
      rw [ih]
      by_cases hxa : x = a
      · simp [hxa]
      · simp [Memory.read, hxa, ← hay]
    · simp only [Memory.read, ih]
      by_cases hxy : x = y
      · subst hxy
        simp [show x ≠ a by omega]
      · simp [hxy]

/-- What the environment's change of one address does to every read. -/
theorem Memory.read_set {m : Memory} (a x : Nat) (b : Option Byte) (h : Memory.rising m = true) :
    Memory.read (Memory.set m a b) x = if x = a then b else Memory.read m x := by
  cases b with
  | none => exact Memory.read_drop a x
  | some b => exact Memory.read_put a x b h

theorem Memory.readUpTo_length_le (m : Memory) (a n : Nat) : (Memory.readUpTo m a n).length ≤ n := by
  induction n generalizing a with
  | zero => simp [Memory.readUpTo]
  | succ n ih =>
    simp only [Memory.readUpTo]
    cases Memory.read m a with
    | none => simp
    | some b => simpa using ih (a + 1)

/-- Every byte a read returns stands at its address. -/
theorem Memory.readUpTo_get (m : Memory) (a n k : Nat) (h : k < (Memory.readUpTo m a n).length) :
    Memory.read m (a + k) = some (Memory.readUpTo m a n)[k] := by
  induction n generalizing a k with
  | zero => simp [Memory.readUpTo] at h
  | succ n ih =>
    cases hr : Memory.read m a with
    | none => simp [Memory.readUpTo, hr] at h
    | some b =>
      simp only [Memory.readUpTo, hr] at h ⊢
      cases k with
      | zero => simpa using hr
      | succ k =>
        have := ih (a + 1) k (by simpa using h)
        simpa [Nat.add_assoc, Nat.add_comm 1 k] using this

/-- A read that stops short stops at an address that is not valid. -/
theorem Memory.readUpTo_stop (m : Memory) (a n : Nat) (h : (Memory.readUpTo m a n).length < n) :
    Memory.read m (a + (Memory.readUpTo m a n).length) = none := by
  induction n generalizing a with
  | zero => simp at h
  | succ n ih =>
    cases hr : Memory.read m a with
    | none => simp [Memory.readUpTo, hr]
    | some b =>
      simp only [Memory.readUpTo, hr, List.length_cons] at h ⊢
      have := ih (a + 1) (by omega)
      simpa [Nat.add_assoc, Nat.add_comm 1] using this

end Sys2Proof.Machine
end

