-- ==== Sys2Proof/Laws/Ops.lean ====
section
/-! SUPPORT. What each shared operation of a command can do, said once: the provers cite these instead of unfolding
the operations. -/

namespace Sys2Proof.Machine

@[simp] theorem andThen_done (s : State) (k : State → Result) : andThen (.done s) k = k s := rfl
@[simp] theorem andThen_raise (e : ErrCode) (a : Word) (s : State) (k : State → Result) :
    andThen (.raise e a s) k = .raise e a s := rfl
@[simp] theorem andThen_stuck (f : Fault) (k : State → Result) : andThen (.stuck f) k = .stuck f := rfl
@[simp] theorem performTimes_zero (body : State → Result) (s : State) : performTimes body 0 s = .done s := rfl
@[simp] theorem performTimes_succ (body : State → Result) (n : Nat) (s : State) :
    performTimes body (n + 1) s = andThen (body s) (performTimes body n) := rfl

/-- While an error is recorded a command is ignored (60_exceptions.md R153). -/
@[simp] theorem runCommand_ignored (i : Instr) (body : State → Result) {s : State} (h : s.err ≠ .eNone) :
    runCommand i body s = .next s := by
  simp [runCommand, h]

/-- With no error recorded a command is its body, an error it raises being recorded (60_exceptions.md R152). -/
theorem runCommand_ready (i : Instr) (body : State → Result) {s : State} (h : s.err = .eNone) :
    runCommand i body s = (match body s with
      | .done t => .next t
      | .raise e a t => .next (raiseError e (encode i) a t)
      | .stuck f => .fault f) := by
  cases hb : body s <;> simp [runCommand, h, hb]

/-- Everything a command can lead to when it answers a next state. -/
theorem runCommand_next {i : Instr} {body : State → Result} {s t : State} (h : runCommand i body s = .next t) :
    (s.err ≠ .eNone ∧ t = s)
    ∨ (s.err = .eNone ∧ body s = .done t)
    ∨ ∃ e a u, s.err = .eNone ∧ body s = .raise e a u ∧ t = raiseError e (encode i) a u := by
  by_cases he : s.err = .eNone
  · rw [runCommand_ready i body he] at h
    cases hb : body s with
    | done u => simp only [hb, Host.Outcome.next.injEq] at h; exact .inr (.inl ⟨he, by rw [h]⟩)
    | raise e a u => simp only [hb, Host.Outcome.next.injEq] at h; exact .inr (.inr ⟨e, a, u, he, rfl, h.symm⟩)
    | stuck f => simp [hb] at h
  · rw [runCommand_ignored i body he] at h
    exact .inl ⟨he, by simpa using h.symm⟩

/-- The only stop of a command is its body's. -/
theorem runCommand_fault {i : Instr} {body : State → Result} {s : State} {f : Fault}
    (h : runCommand i body s = .fault f) : body s = .stuck f := by
  by_cases he : s.err = .eNone
  · rw [runCommand_ready i body he] at h
    cases hb : body s <;> simp_all
  · rw [runCommand_ignored i body he] at h
    cases h

/-- A command is never refused. -/
theorem runCommand_not_refused (i : Instr) (body : State → Result) (s : State) (r : Refusal) :
    runCommand i body s ≠ .refused r := by
  by_cases he : s.err = .eNone
  · rw [runCommand_ready i body he]
    cases body s <;> simp
  · rw [runCommand_ignored i body he]
    simp

/-- A sequence completes when both parts do. -/
theorem andThen_eq_done {r : Result} {k : State → Result} {t : State} (h : andThen r k = .done t) :
    ∃ u, r = .done u ∧ k u = .done t := by
  cases r with
  | done u => exact ⟨u, rfl, h⟩
  | raise e a u => cases h
  | stuck f => cases h

/-- A sequence raises what its first part raises, or what the second does after the first completed. -/
theorem andThen_eq_raise {r : Result} {k : State → Result} {e : ErrCode} {a : Word} {t : State}
    (h : andThen r k = .raise e a t) : r = .raise e a t ∨ ∃ u, r = .done u ∧ k u = .raise e a t := by
  cases r with
  | done u => exact .inr ⟨u, rfl, h⟩
  | raise e' a' u => exact .inl h
  | stuck f => cases h

/-- A sequence is stuck where a part is. -/
theorem andThen_eq_stuck {r : Result} {k : State → Result} {f : Fault} (h : andThen r k = .stuck f) :
    r = .stuck f ∨ ∃ u, r = .done u ∧ k u = .stuck f := by
  cases r with
  | done u => exact .inr ⟨u, rfl, h⟩
  | raise e a u => cases h
  | stuck f' => exact .inl h

/-- The range check passes its state on, or raises `E_RANGE` (20_memory.md R47). -/
theorem checkRange_cases (k : State → Result) (s : State) :
    (rangeOk s = true ∧ checkRange k s = k s) ∨ (rangeOk s = false ∧ checkRange k s = .raise .eRange 0 s) := by
  unfold checkRange raise
  cases rangeOk s <;> simp

theorem rangeOk_iff (s : State) :
    rangeOk s = true ↔ s.klen.toNat ≤ s.cfg.lmax.toNat ∧ s.kbase.toNat + s.klen.toNat ≤ 2 ^ 64 := by
  simp [rangeOk]

/-- The stage check passes its state on, or raises `E_SEQ` (41_block_tail_final.md R100). -/
theorem checkStage_cases (legal : Bool) (k : State → Result) (s : State) :
    (legal = true ∧ checkStage legal k s = k s) ∨ (legal = false ∧ checkStage legal k s = .raise .eSeq 0 s) := by
  unfold checkStage raise
  cases legal <;> simp

/-- `MemRead` passes exactly `n` bytes on, each standing at its address, the reads recorded; or it raises
`E_KEYFAULT` at the first address that is not valid, the reads before it recorded (20_memory.md R42, R45). -/
theorem withKey_cases (a n : Nat) (k : List Byte → State → Result) (s : State) :
    (∃ b : List Byte, b.length = n
      ∧ (∀ j, (h : j < b.length) → Memory.read s.mem (a + j) = some b[j])
      ∧ withKey a n k s = k b (s.logKeys (List.range' a n)))
    ∨ ∃ j, j < n ∧ (∀ x, x < j → (Memory.read s.mem (a + x)).isSome = true)
        ∧ Memory.read s.mem (a + j) = none
        ∧ withKey a n k s = .raise .eKeyFault (BitVec.ofNat 64 (a + j)) (s.logKeys (List.range' a j)) := by
  by_cases h : (Memory.readUpTo s.mem a n).length = n
  · refine .inl ⟨_, h, fun j hj => Memory.readUpTo_get _ _ _ _ hj, ?_⟩
    simp [withKey, h]
  · have hlt := lt_of_le_of_ne (Memory.readUpTo_length_le s.mem a n) h
    refine .inr ⟨_, hlt, fun x hx => ?_, Memory.readUpTo_stop _ _ _ hlt, ?_⟩
    · simp [Memory.readUpTo_get s.mem a n x hx]
    · simp [withKey, h]

/-- `ST` is passed on where it is valid. -/
@[simp] theorem withST_valid (k : Word → State → Result) {s : State} {x : Word} (h : s.st = some x) :
    withST k s = k x s := by
  simp [withST, h]

/-- `ST` invalid has no rule (41_block_tail_final.md R101). -/
@[simp] theorem withST_invalid (k : Word → State → Result) {s : State} (h : s.st = none) :
    withST k s = .stuck .stateDestroyed := by
  simp [withST, h]

/-- What the core can find at its host port. -/
theorem fetch_cases (s : State) :
    (s.inbox = [] ∧ fetch s = .idle)
    ∨ (∃ v r, s.inbox = .write cmdReg v :: r ∧ fetch s = .command v { s with inbox := r })
    ∨ (∃ n v r, n ≠ cmdReg ∧ s.inbox = .write n v :: r ∧ fetch s = .other (hostWrite n v { s with inbox := r }))
    ∨ (∃ n r, s.inbox = .read n :: r ∧ fetch s = .other (hostRead n { s with inbox := r }))
    ∨ (∃ r, s.inbox = .hardReset :: r ∧ fetch s = .other (State.resetBlock { s with inbox := r }))
    ∨ ∃ a b r, s.inbox = .setKey a b :: r ∧ fetch s = .other (State.setKeyByte { s with inbox := r } a b) := by
  cases h : s.inbox with
  | nil => simp [fetch, h]
  | cons ev r =>
    cases ev with
    | write n v => by_cases hn : n = cmdReg <;> simp [fetch, h, hn]
    | read n => simp [fetch, h]
    | hardReset => simp [fetch, h]
    | setKey a b => simp [fetch, h]

/-- A host write touches at most the six groups of RW registers (10_state.md R22, R23). -/
theorem hostWrite_frame (n : Fin 64) (v : Word) (s : State) :
    ∃ seed kbase klen opa opb seed512, hostWrite n v s =
      { s with seed := seed, kbase := kbase, klen := klen, opa := opa, opb := opb, seed512 := seed512 } := by
  unfold hostWrite
  split <;> exact ⟨_, _, _, _, _, _, rfl⟩

/-- A host read touches nothing but what the host has read (10_state.md R23). -/
theorem hostRead_frame (n : Fin 64) (s : State) :
    ∃ v k, hostRead n s = { s with hostReads := (n, v) :: s.hostReads, freeCtr := k } := by
  unfold hostRead
  split <;> exact ⟨_, _, rfl⟩

end Sys2Proof.Machine
end

