-- ==== Sys2Proof/Laws/Exec.lean ====
section
/-! SUPPORT. Every command but `SRST` is one body inside the common frame, so a property of all commands is a property
of 22 bodies: what a command does with an error recorded, without one, and what it can answer at all. -/

namespace Sys2Proof.Machine

/-- What a command performs when no error is recorded, before its raise is recorded. `SRST` runs outside the frame. -/
def commandBody : Instr → State → Result
  | .nop => Result.done
  | .srst => fun s => .done s.resetBlock
  | .mulw => fun s => .done (s.setRes (twoLimbs (mulw64 s.opa[0] s.opb[0])))
  | .mumx => fun s => .done (s.setRes (oneLimb (mumx s.opa[0] s.opb[0])))
  | .muma => fun s => .done (s.setRes (oneLimb (muma s.opa[0] s.opb[0])))
  | .mulw128 => fun s => .done (s.setRes (fourLimbs (mulw128 (operandA s) (operandB s))))
  | .mum128x => fun s => .done (s.setRes (twoLimbs (mum128x (operandA s) (operandB s))))
  | .mum128a => fun s => .done (s.setRes (twoLimbs (mum128a (operandA s) (operandB s))))
  | .vmum32 => fun s => .done (s.setRes #v[mum32 s.opa[0] s.opb[0], mum32 s.opa[1] s.opb[1],
      mum32 s.opa[2] s.opb[2], mum32 s.opa[3] s.opb[3]])
  | .mumc idx => fun s => .done (s.setRes (oneLimb (mum (foldAt s.cfg idx) s.opa[0] (constAt s.cfg idx))))
  | .hinit => performHinit
  | .vmix => performVmix
  | .vred => performVred
  | .bmix => performBmix
  | .tmix => performTmix
  | .hfin => performHfin
  | .hash64 => performHash64
  | .vhash64 => performHash64
  | .hash512 => performHash512
  | .pseed => fun s => .done s.seedGen
  | .pnext => performPnext
  | .pseed512 => fun s => .done s.seedGen512
  | .pnext512 => performPnext512

theorem exec_srst (s : State) : exec .srst s = .next s.resetBlock := rfl

theorem exec_eq_runCommand {i : Instr} (h : i ≠ .srst) (s : State) :
    exec i s = runCommand i (commandBody i) s := by
  cases i with
  | srst => exact absurd rfl h
  | nop | mulw | mumx | muma | mulw128 | mum128x | mum128a | vmum32 | mumc | hinit | vmix | vred | bmix | tmix | hfin
  | hash64 | vhash64 | hash512 | pseed | pnext | pseed512 | pnext512 => rfl

/-- With an error recorded every command but `SRST` is ignored (60_exceptions.md R153). -/
theorem exec_ignored {i : Instr} (hi : i ≠ .srst) {s : State} (h : s.err ≠ .eNone) : exec i s = .next s := by
  rw [exec_eq_runCommand hi, runCommand_ignored _ _ h]

/-- With no error recorded a command completes where its body does. -/
theorem exec_done {i : Instr} (hi : i ≠ .srst) {s t : State} (h : s.err = .eNone) (hb : commandBody i s = .done t) :
    exec i s = .next t := by
  rw [exec_eq_runCommand hi, runCommand_ready _ _ h, hb]

/-- With no error recorded the error a command raises is recorded (60_exceptions.md R152). -/
theorem exec_raise {i : Instr} (hi : i ≠ .srst) {s t : State} {e : ErrCode} {a : Word} (h : s.err = .eNone)
    (hb : commandBody i s = .raise e a t) : exec i s = .next (raiseError e (encode i) a t) := by
  rw [exec_eq_runCommand hi, runCommand_ready _ _ h, hb]

/-- Everything a command can do when it answers a next state. -/
theorem exec_next {i : Instr} {s t : State} (h : exec i s = .next t) :
    (i = .srst ∧ t = s.resetBlock)
    ∨ (i ≠ .srst ∧ s.err ≠ .eNone ∧ t = s)
    ∨ (i ≠ .srst ∧ s.err = .eNone ∧ commandBody i s = .done t)
    ∨ ∃ e a u, i ≠ .srst ∧ s.err = .eNone ∧ commandBody i s = .raise e a u ∧ t = raiseError e (encode i) a u := by
  by_cases hi : i = .srst
  · subst hi
    rw [exec_srst] at h
    exact .inl ⟨rfl, by simpa using h.symm⟩
  · rw [exec_eq_runCommand hi] at h
    rcases runCommand_next h with ⟨he, ht⟩ | ⟨he, hb⟩ | ⟨e, a, u, he, hb, ht⟩
    · exact .inr (.inl ⟨hi, he, ht⟩)
    · exact .inr (.inr (.inl ⟨hi, he, hb⟩))
    · exact .inr (.inr (.inr ⟨e, a, u, hi, he, hb, ht⟩))

/-- No command is refused. -/
theorem exec_not_refused (i : Instr) (s : State) (r : Refusal) : exec i s ≠ .refused r := by
  by_cases hi : i = .srst
  · subst hi
    simp [exec_srst]
  · rw [exec_eq_runCommand hi]
    exact runCommand_not_refused _ _ _ _

/-- The only stop of a command is its body's. -/
theorem exec_fault {i : Instr} {s : State} {f : Fault} (h : exec i s = .fault f) :
    i ≠ .srst ∧ commandBody i s = .stuck f := by
  by_cases hi : i = .srst
  · subst hi
    simp [exec_srst] at h
  · rw [exec_eq_runCommand hi] at h
    exact ⟨hi, runCommand_fault h⟩

end Sys2Proof.Machine
end

