-- ==== Sys2Proof/Laws/PerInstr.lean ====
section
/-! SUPPORT. Statements made for every instruction, one lemma a constructor. -/

namespace Sys2Proof.Laws.EncodeFits

/-- An instruction is well formed, and its word has the two formats of 30_encoding.md R56: bits `[63:12]` are 0, the
index field holds the index or 0, the low byte is the opcode of R57; so the word fits the table's bits. -/
def Statement (i : Instr) : Prop :=
  i.wf = true ∧ cmdUpper (encode i) = 0 ∧ cmdIdx (encode i) = i.idxField ∧ cmdOpc (encode i) = i.opc
    ∧ (encode i).toNat < 4096

theorem nop : Statement .nop := by unfold Statement; decide

theorem srst : Statement .srst := by unfold Statement; decide

theorem mulw : Statement .mulw := by unfold Statement; decide

theorem mumx : Statement .mumx := by unfold Statement; decide

theorem muma : Statement .muma := by unfold Statement; decide

theorem mulw128 : Statement .mulw128 := by unfold Statement; decide

theorem mum128x : Statement .mum128x := by unfold Statement; decide

theorem mum128a : Statement .mum128a := by unfold Statement; decide

theorem vmum32 : Statement .vmum32 := by unfold Statement; decide

theorem mumc (idx : BitVec 4) : Statement (.mumc idx) := by
  unfold Statement
  revert idx
  decide

theorem hinit : Statement .hinit := by unfold Statement; decide

theorem vmix : Statement .vmix := by unfold Statement; decide

theorem vred : Statement .vred := by unfold Statement; decide

theorem bmix : Statement .bmix := by unfold Statement; decide

theorem tmix : Statement .tmix := by unfold Statement; decide

theorem hfin : Statement .hfin := by unfold Statement; decide

theorem hash64 : Statement .hash64 := by unfold Statement; decide

theorem vhash64 : Statement .vhash64 := by unfold Statement; decide

theorem hash512 : Statement .hash512 := by unfold Statement; decide

theorem pseed : Statement .pseed := by unfold Statement; decide

theorem pnext : Statement .pnext := by unfold Statement; decide

theorem pseed512 : Statement .pseed512 := by unfold Statement; decide

theorem pnext512 : Statement .pnext512 := by unfold Statement; decide

end Sys2Proof.Laws.EncodeFits
end

