-- ==== Sys2Proof/Laws/Run.lean ====
section
/-! SUPPORT. Steps and runs: what one step does with each transaction, and a run peeled off one step at a time. -/

namespace Sys2Proof.Machine

theorem run_zero (s : State) : Host.Core.run Sys2Proof.core 0 s = .next s := rfl

theorem run_next {s t : State} {n : Nat} (h : step s = .next t) :
    Host.Core.run Sys2Proof.core (n + 1) s = Host.Core.run Sys2Proof.core n t := by
  have h' : Sys2Proof.core.step s = .next t := h
  simp only [Host.Core.run, h']

/-- A step that takes a legal command word is that command (30_encoding.md R55, R63). -/
theorem step_command {s : State} {r : List HostEvent} {v : Word} {i : Instr}
    (h : s.inbox = .write cmdReg v :: r) (hd : decode v = .ok i) : step s = exec i { s with inbox := r } := by
  simp [step, fetch, h, hd]

/-- A step that takes an illegal value (30_encoding.md R59). -/
theorem step_illegal {s : State} {r : List HostEvent} {v : Word} {e : Illegal}
    (h : s.inbox = .write cmdReg v :: r) (hd : decode v = .error e) :
    step s = .next (illegalCommand v { s with inbox := r }) := by
  simp [step, fetch, h, hd]

/-- Everything a step can be. -/
theorem step_cases (s : State) :
    (s.inbox = [] ∧ step s = .next s)
    ∨ (∃ v r i, s.inbox = .write cmdReg v :: r ∧ decode v = .ok i ∧ step s = exec i { s with inbox := r })
    ∨ (∃ v r e, s.inbox = .write cmdReg v :: r ∧ decode v = .error e
        ∧ step s = .next (illegalCommand v { s with inbox := r }))
    ∨ (∃ n v r, n ≠ cmdReg ∧ s.inbox = .write n v :: r ∧ step s = .next (hostWrite n v { s with inbox := r }))
    ∨ (∃ n r, s.inbox = .read n :: r ∧ step s = .next (hostRead n { s with inbox := r }))
    ∨ (∃ r, s.inbox = .hardReset :: r ∧ step s = .next (State.resetBlock { s with inbox := r }))
    ∨ ∃ a b r, s.inbox = .setKey a b :: r ∧ step s = .next (State.setKeyByte { s with inbox := r } a b) := by
  rcases fetch_cases s with ⟨h, hf⟩ | ⟨v, r, h, hf⟩ | ⟨n, v, r, hn, h, hf⟩ | ⟨n, r, h, hf⟩ | ⟨r, h, hf⟩
    | ⟨a, b, r, h, hf⟩
  · exact .inl ⟨h, by simp [step, hf]⟩
  · cases hd : decode v with
    | ok i => exact .inr (.inl ⟨v, r, i, h, hd, step_command h hd⟩)
    | error e => exact .inr (.inr (.inl ⟨v, r, e, h, hd, step_illegal h hd⟩))
  · exact .inr (.inr (.inr (.inl ⟨n, v, r, hn, h, by simp [step, hf]⟩)))
  · exact .inr (.inr (.inr (.inr (.inl ⟨n, r, h, by simp [step, hf]⟩))))
  · exact .inr (.inr (.inr (.inr (.inr (.inl ⟨r, h, by simp [step, hf]⟩)))))
  · exact .inr (.inr (.inr (.inr (.inr (.inr ⟨a, b, r, h, by simp [step, hf]⟩)))))

end Sys2Proof.Machine
end

