-- ==== Sys2Proof/Laws/Stage.lean ====
section
/-! SUPPORT. What a read of the key does where its bytes are valid and where one is not, and what each part of a hash
does where its precondition holds: the lemmas that chain into whole hashes. -/

namespace Sys2Proof.Machine

theorem KeyHolds.read_at {m : Memory} {a k : Nat} {b : List Byte} (h : KeyHolds m a b) (hk : k < b.length) :
    Memory.read m (a + k) = some b[k] :=
  h k hk

/-- A part of a key that lies in the key space lies there too. -/
theorem KeyHolds.drop_take {m : Memory} {a : Nat} {b : List Byte} (i n : Nat) (h : KeyHolds m a b) :
    KeyHolds m (a + i) ((b.drop i).take n) := by
  intro k hk
  simp only [List.length_take, List.length_drop] at hk
  have := h (i + k) (by omega)
  rw [Nat.add_assoc, this]
  simp

theorem KeyHolds.take {m : Memory} {a : Nat} {b : List Byte} (n : Nat) (h : KeyHolds m a b) :
    KeyHolds m a (b.take n) := by
  simpa using h.drop_take 0 n

theorem KeyHolds.drop {m : Memory} {a : Nat} {b : List Byte} (i : Nat) (h : KeyHolds m a b) :
    KeyHolds m (a + i) (b.drop i) := by
  have := h.drop_take i b.length
  rwa [List.take_of_length_le (by simp)] at this

/-- A fault inside a key, seen from an address further on. -/
theorem FirstInvalid.shift {m : Memory} {a k : Nat} (i : Nat) (h : FirstInvalid m a k) (hi : i ≤ k) :
    FirstInvalid m (a + i) (k - i) := by
  refine ⟨fun j hj => ?_, ?_⟩
  · rw [Nat.add_assoc]
    exact h.1 (i + j) (by omega)
  · rw [show a + i + (k - i) = a + k by omega]
    exact h.2

/-- The bytes before the first invalid address are a key. -/
theorem FirstInvalid.prefix {m : Memory} {a k : Nat} (h : FirstInvalid m a k) :
    ∃ b : List Byte, b.length = k ∧ KeyHolds m a b := by
  refine ⟨(List.range k).map fun j => (Memory.read m (a + j)).getD 0, by simp, fun j hj => ?_⟩
  simp only [List.length_map, List.length_range] at hj
  obtain ⟨x, hx⟩ := Option.isSome_iff_exists.mp (h.1 j hj)
  simp [hx]

theorem readUpTo_eq {m : Memory} {a n : Nat} {b : List Byte} (hn : b.length = n) (h : KeyHolds m a b) :
    Memory.readUpTo m a n = b := by
  induction b generalizing a n with
  | nil => subst hn; rfl
  | cons x b ih =>
    obtain ⟨n, rfl⟩ : ∃ k, n = k + 1 := ⟨b.length, by simpa using hn.symm⟩
    have h0 := h 0 (by simp)
    simp only [Nat.add_zero, List.getElem_cons_zero] at h0
    simp only [Memory.readUpTo, h0]
    rw [ih (a := a + 1) (by simpa using hn)]
    intro k hk
    have := h (k + 1) (by simpa using hk)
    rw [show a + 1 + k = a + (k + 1) by omega, this]
    simp

theorem readUpTo_short {m : Memory} {a n k : Nat} (hk : k < n) (h : FirstInvalid m a k) :
    (Memory.readUpTo m a n).length = k := by
  induction k generalizing a n with
  | zero =>
    obtain ⟨n, rfl⟩ : ∃ k, n = k + 1 := ⟨n - 1, by omega⟩
    have := h.2
    simp only [Nat.add_zero] at this
    simp [Memory.readUpTo, this]
  | succ k ih =>
    obtain ⟨n, rfl⟩ : ∃ k, n = k + 1 := ⟨n - 1, by omega⟩
    obtain ⟨b, hb⟩ := Option.isSome_iff_exists.mp (h.1 0 (by omega))
    simp only [Nat.add_zero] at hb
    simp only [Memory.readUpTo, hb, List.length_cons]
    rw [ih (a := a + 1) (by omega)]
    simpa using h.shift 1 (by omega)

/-- `MemRead` of bytes that are valid (20_memory.md R42). -/
theorem withKey_valid {a n : Nat} {b : List Byte} (k : List Byte → State → Result) (s : State)
    (hn : b.length = n) (h : KeyHolds s.mem a b) :
    withKey a n k s = k b (s.logKeys (List.range' a n)) := by
  unfold withKey
  rw [readUpTo_eq hn h]
  simp [hn]

/-- `MemRead` that meets an invalid address (20_memory.md R42, R45). -/
theorem withKey_faults {a n j : Nat} (k : List Byte → State → Result) (s : State)
    (hj : j < n) (h : FirstInvalid s.mem a j) :
    withKey a n k s = .raise .eKeyFault (BitVec.ofNat 64 (a + j)) (s.logKeys (List.range' a j)) := by
  simp [withKey, readUpTo_short hj h, show j ≠ n by omega]

theorem checkStage_legal {legal : Bool} (k : State → Result) (s : State) (h : legal = true) :
    checkStage legal k s = k s := by
  simp [checkStage, h]

theorem checkStage_illegal {legal : Bool} (k : State → Result) (s : State) (h : legal = false) :
    checkStage legal k s = .raise .eSeq 0 s := by
  simp [checkStage, h, raise]

theorem performHinit_ok {s : State} (h : rangeOk s = true) : performHinit s = .done s.openHash := by
  simp [performHinit, checkRange, h]

theorem performVmix_ok {s : State} {b : List Byte} (hp : s.ph = .vec) (hl : 128 ≤ s.left)
    (hb : b.length = 128) (hk : KeyHolds s.mem s.nextKey b) :
    performVmix s
      = .done ((s.logKeys (List.range' s.nextKey 128)).putVec (vecBlock s.cfg s.vs (leWords 16 b))) := by
  unfold performVmix
  rw [checkStage_legal _ _ (by simp [hp, hl]), withKey_valid _ _ hb hk]
  rfl

theorem performVmix_faults {s : State} {j : Nat} (hp : s.ph = .vec) (hl : 128 ≤ s.left)
    (hj : j < 128) (hk : FirstInvalid s.mem s.nextKey j) :
    performVmix s = .raise .eKeyFault (BitVec.ofNat 64 (s.nextKey + j)) (s.logKeys (List.range' s.nextKey j)) := by
  unfold performVmix
  rw [checkStage_legal _ _ (by simp [hp, hl]), withKey_faults _ _ hj hk]

theorem performVred_ok {s : State} {x : Word} (hp : s.ph = .vec) (hl : s.left < 128) (hx : s.st = some x) :
    performVred s = .done (s.endVec (vecReduce s.cfg x s.vs)) := by
  unfold performVred
  rw [checkStage_legal _ _ (by simp [hp, hl])]
  simp [withST, hx]

theorem performBmix_ok {s : State} {x : Word} {b : List Byte} (hp : s.ph = .blk) (hl : 64 ≤ s.left)
    (hx : s.st = some x) (hb : b.length = 64) (hk : KeyHolds s.mem s.nextKey b) :
    performBmix s
      = .done ((s.logKeys (List.range' s.nextKey 64)).putBlock (blockMix s.cfg x (leWords 8 b))) := by
  unfold performBmix
  rw [checkStage_legal _ _ (by simp [hp, hl]), withKey_valid _ _ hb hk]
  simp [withST, State.logKeys, hx]

theorem performBmix_faults {s : State} {j : Nat} (hp : s.ph = .blk) (hl : 64 ≤ s.left)
    (hj : j < 64) (hk : FirstInvalid s.mem s.nextKey j) :
    performBmix s = .raise .eKeyFault (BitVec.ofNat 64 (s.nextKey + j)) (s.logKeys (List.range' s.nextKey j)) := by
  unfold performBmix
  rw [checkStage_legal _ _ (by simp [hp, hl]), withKey_faults _ _ hj hk]

theorem performTmix_ok {s : State} {x : Word} {b : List Byte} (hp : s.ph = .blk) (hl : s.left < 64)
    (hx : s.st = some x) (hb : b.length = s.left) (hk : KeyHolds s.mem s.nextKey b) :
    performTmix s = .done ((s.logKeys (List.range' s.nextKey s.left)).putTail (tailMix s.cfg x b)) := by
  unfold performTmix
  rw [checkStage_legal _ _ (by simp [hp, hl]), withKey_valid _ _ hb hk]
  simp [withST, State.logKeys, hx]

theorem performTmix_faults {s : State} {j : Nat} (hp : s.ph = .blk) (hl : s.left < 64)
    (hj : j < s.left) (hk : FirstInvalid s.mem s.nextKey j) :
    performTmix s = .raise .eKeyFault (BitVec.ofNat 64 (s.nextKey + j)) (s.logKeys (List.range' s.nextKey j)) := by
  unfold performTmix
  rw [checkStage_legal _ _ (by simp [hp, hl]), withKey_faults _ _ hj hk]

theorem performHfin_ok {s : State} {x : Word} (hp : s.ph = .fin) (hx : s.st = some x) :
    performHfin s = .done (s.closeHash (finalMix s.cfg x)) := by
  unfold performHfin
  rw [checkStage_legal _ _ (by simp [hp])]
  simp [withST, hx]

theorem add_assoc_ofNat (x : Word) (m n : Nat) :
    x + BitVec.ofNat 64 m + BitVec.ofNat 64 n = x + BitVec.ofNat 64 (m + n) := by
  apply BitVec.eq_of_toNat_eq
  simp only [BitVec.toNat_add, BitVec.toNat_ofNat]
  omega

/-- `n` vector blocks in a row (42_vector_layer.md R109). -/
theorem performVmix_times (n : Nat) {s : State} {b : List Byte} (hp : s.ph = .vec) (hl : 128 * n ≤ s.left)
    (hb : 128 * n ≤ b.length) (hk : KeyHolds s.mem s.nextKey b) :
    performTimes performVmix n s
      = .done { s with
          vs := vecLoop s.cfg n s.vs b, cur := s.cur + BitVec.ofNat 64 (128 * n),
          keyReads := s.keyReads ++ List.range' s.nextKey (128 * n) } := by
  induction n generalizing s b with
  | zero => simp [vecLoop]
  | succ n ih =>
    have hl' : 128 * (n + 1) ≤ s.llen.toNat - s.cur.toNat := hl
    have hlt := s.llen.isLt
    have hc : (s.cur + 128).toNat = s.cur.toNat + 128 := add_ofNat_toNat (n := 128) (by omega)
    rw [performTimes_succ, performVmix_ok hp (by omega) (b := b.take 128) (by simp; omega) (hk.take _), andThen_done,
      ih (b := b.drop 128)]
    · simp only [State.putVec, State.logKeys, State.nextKey, vecLoop]
      rw [List.append_assoc, hc, ← Nat.add_assoc, List.range'_append_1, show (128 : Word) = BitVec.ofNat 64 128 from rfl,
        add_assoc_ofNat, show 128 + 128 * n = 128 * (n + 1) by omega]
    · exact hp
    · show _ ≤ s.llen.toNat - (s.cur + 128).toNat
      omega
    · simp only [List.length_drop]
      omega
    · show KeyHolds s.mem (s.lbase.toNat + (s.cur + 128).toNat) _
      rw [hc, ← Nat.add_assoc]
      exact hk.drop 128

/-- `n` blocks in a row (41_block_tail_final.md R94). -/
theorem performBmix_times (n : Nat) {s : State} {x : Word} {b : List Byte} (hp : s.ph = .blk) (hx : s.st = some x)
    (hl : 64 * n ≤ s.left) (hb : 64 * n ≤ b.length) (hk : KeyHolds s.mem s.nextKey b) :
    performTimes performBmix n s
      = .done { s with
          st := some (blockLoop s.cfg n x b), cur := s.cur + BitVec.ofNat 64 (64 * n),
          keyReads := s.keyReads ++ List.range' s.nextKey (64 * n) } := by
  induction n generalizing s b x with
  | zero => simp [blockLoop, ← hx]
  | succ n ih =>
    have hl' : 64 * (n + 1) ≤ s.llen.toNat - s.cur.toNat := hl
    have hlt := s.llen.isLt
    have hc : (s.cur + 64).toNat = s.cur.toNat + 64 := add_ofNat_toNat (n := 64) (by omega)
    rw [performTimes_succ, performBmix_ok hp (by omega) hx (b := b.take 64) (by simp; omega) (hk.take _), andThen_done,
      ih (b := b.drop 64) _ rfl]
    · simp only [State.putBlock, State.logKeys, State.nextKey, blockLoop]
      rw [List.append_assoc, hc, ← Nat.add_assoc, List.range'_append_1, show (64 : Word) = BitVec.ofNat 64 64 from rfl,
        add_assoc_ofNat, show 64 + 64 * n = 64 * (n + 1) by omega]
    · show _ ≤ s.llen.toNat - (s.cur + 64).toNat
      omega
    · simp only [List.length_drop]
      omega
    · show KeyHolds s.mem (s.lbase.toNat + (s.cur + 64).toNat) _
      rw [hc, ← Nat.add_assoc]
      exact hk.drop 64
    · exact hp

end Sys2Proof.Machine
end

