-- ==== Sys2Proof/Laws/State.lean ====
section
/-! SUPPORT. What each named update of the state does to each field: one lemma a field, true by definition, so that
no later proof unfolds a record update. -/

namespace Sys2Proof.Machine

section setRes
variable (s : State)
@[simp] theorem setRes_err (r : Vector Word 4) : (s.setRes r).err = s.err := rfl
@[simp] theorem setRes_errinfo (r : Vector Word 4) : (s.setRes r).errinfo = s.errinfo := rfl
@[simp] theorem setRes_erraddr (r : Vector Word 4) : (s.setRes r).erraddr = s.erraddr := rfl
@[simp] theorem setRes_seed (r : Vector Word 4) : (s.setRes r).seed = s.seed := rfl
@[simp] theorem setRes_kbase (r : Vector Word 4) : (s.setRes r).kbase = s.kbase := rfl
@[simp] theorem setRes_klen (r : Vector Word 4) : (s.setRes r).klen = s.klen := rfl
@[simp] theorem setRes_opa (r : Vector Word 4) : (s.setRes r).opa = s.opa := rfl
@[simp] theorem setRes_opb (r : Vector Word 4) : (s.setRes r).opb = s.opb := rfl
@[simp] theorem setRes_res (r : Vector Word 4) : (s.setRes r).res = some r := rfl
@[simp] theorem setRes_digest (r : Vector Word 4) : (s.setRes r).digest = s.digest := rfl
@[simp] theorem setRes_digest512 (r : Vector Word 4) : (s.setRes r).digest512 = s.digest512 := rfl
@[simp] theorem setRes_pout (r : Vector Word 4) : (s.setRes r).pout = s.pout := rfl
@[simp] theorem setRes_pout512 (r : Vector Word 4) : (s.setRes r).pout512 = s.pout512 := rfl
@[simp] theorem setRes_seed512 (r : Vector Word 4) : (s.setRes r).seed512 = s.seed512 := rfl
@[simp] theorem setRes_st (r : Vector Word 4) : (s.setRes r).st = s.st := rfl
@[simp] theorem setRes_vs (r : Vector Word 4) : (s.setRes r).vs = s.vs := rfl
@[simp] theorem setRes_st512 (r : Vector Word 4) : (s.setRes r).st512 = s.st512 := rfl
@[simp] theorem setRes_ph (r : Vector Word 4) : (s.setRes r).ph = s.ph := rfl
@[simp] theorem setRes_cur (r : Vector Word 4) : (s.setRes r).cur = s.cur := rfl
@[simp] theorem setRes_lbase (r : Vector Word 4) : (s.setRes r).lbase = s.lbase := rfl
@[simp] theorem setRes_llen (r : Vector Word 4) : (s.setRes r).llen = s.llen := rfl
@[simp] theorem setRes_pstate (r : Vector Word 4) : (s.setRes r).pstate = s.pstate := rfl
@[simp] theorem setRes_pctr (r : Vector Word 4) : (s.setRes r).pctr = s.pctr := rfl
@[simp] theorem setRes_pstate512 (r : Vector Word 4) : (s.setRes r).pstate512 = s.pstate512 := rfl
@[simp] theorem setRes_pctr512 (r : Vector Word 4) : (s.setRes r).pctr512 = s.pctr512 := rfl
@[simp] theorem setRes_cfg (r : Vector Word 4) : (s.setRes r).cfg = s.cfg := rfl
@[simp] theorem setRes_mem (r : Vector Word 4) : (s.setRes r).mem = s.mem := rfl
@[simp] theorem setRes_inbox (r : Vector Word 4) : (s.setRes r).inbox = s.inbox := rfl
@[simp] theorem setRes_hostReads (r : Vector Word 4) : (s.setRes r).hostReads = s.hostReads := rfl
@[simp] theorem setRes_keyReads (r : Vector Word 4) : (s.setRes r).keyReads = s.keyReads := rfl
@[simp] theorem setRes_freeCtr (r : Vector Word 4) : (s.setRes r).freeCtr = s.freeCtr := rfl
end setRes

section raiseError
variable (s : State)
@[simp] theorem raiseError_err (e : ErrCode) (v a : Word) : (raiseError e v a s).err = e := rfl
@[simp] theorem raiseError_errinfo (e : ErrCode) (v a : Word) : (raiseError e v a s).errinfo = v := rfl
@[simp] theorem raiseError_erraddr (e : ErrCode) (v a : Word) : (raiseError e v a s).erraddr = if e = .eKeyFault then a else 0 := rfl
@[simp] theorem raiseError_seed (e : ErrCode) (v a : Word) : (raiseError e v a s).seed = s.seed := rfl
@[simp] theorem raiseError_kbase (e : ErrCode) (v a : Word) : (raiseError e v a s).kbase = s.kbase := rfl
@[simp] theorem raiseError_klen (e : ErrCode) (v a : Word) : (raiseError e v a s).klen = s.klen := rfl
@[simp] theorem raiseError_opa (e : ErrCode) (v a : Word) : (raiseError e v a s).opa = s.opa := rfl
@[simp] theorem raiseError_opb (e : ErrCode) (v a : Word) : (raiseError e v a s).opb = s.opb := rfl
@[simp] theorem raiseError_res (e : ErrCode) (v a : Word) : (raiseError e v a s).res = s.res := rfl
@[simp] theorem raiseError_digest (e : ErrCode) (v a : Word) : (raiseError e v a s).digest = s.digest := rfl
@[simp] theorem raiseError_digest512 (e : ErrCode) (v a : Word) : (raiseError e v a s).digest512 = s.digest512 := rfl
@[simp] theorem raiseError_pout (e : ErrCode) (v a : Word) : (raiseError e v a s).pout = s.pout := rfl
@[simp] theorem raiseError_pout512 (e : ErrCode) (v a : Word) : (raiseError e v a s).pout512 = s.pout512 := rfl
@[simp] theorem raiseError_seed512 (e : ErrCode) (v a : Word) : (raiseError e v a s).seed512 = s.seed512 := rfl
@[simp] theorem raiseError_st (e : ErrCode) (v a : Word) : (raiseError e v a s).st = none := rfl
@[simp] theorem raiseError_vs (e : ErrCode) (v a : Word) : (raiseError e v a s).vs = s.vs := rfl
@[simp] theorem raiseError_st512 (e : ErrCode) (v a : Word) : (raiseError e v a s).st512 = s.st512 := rfl
@[simp] theorem raiseError_ph (e : ErrCode) (v a : Word) : (raiseError e v a s).ph = .idle := rfl
@[simp] theorem raiseError_cur (e : ErrCode) (v a : Word) : (raiseError e v a s).cur = s.cur := rfl
@[simp] theorem raiseError_lbase (e : ErrCode) (v a : Word) : (raiseError e v a s).lbase = s.lbase := rfl
@[simp] theorem raiseError_llen (e : ErrCode) (v a : Word) : (raiseError e v a s).llen = s.llen := rfl
@[simp] theorem raiseError_pstate (e : ErrCode) (v a : Word) : (raiseError e v a s).pstate = s.pstate := rfl
@[simp] theorem raiseError_pctr (e : ErrCode) (v a : Word) : (raiseError e v a s).pctr = s.pctr := rfl
@[simp] theorem raiseError_pstate512 (e : ErrCode) (v a : Word) : (raiseError e v a s).pstate512 = s.pstate512 := rfl
@[simp] theorem raiseError_pctr512 (e : ErrCode) (v a : Word) : (raiseError e v a s).pctr512 = s.pctr512 := rfl
@[simp] theorem raiseError_cfg (e : ErrCode) (v a : Word) : (raiseError e v a s).cfg = s.cfg := rfl
@[simp] theorem raiseError_mem (e : ErrCode) (v a : Word) : (raiseError e v a s).mem = s.mem := rfl
@[simp] theorem raiseError_inbox (e : ErrCode) (v a : Word) : (raiseError e v a s).inbox = s.inbox := rfl
@[simp] theorem raiseError_hostReads (e : ErrCode) (v a : Word) : (raiseError e v a s).hostReads = s.hostReads := rfl
@[simp] theorem raiseError_keyReads (e : ErrCode) (v a : Word) : (raiseError e v a s).keyReads = s.keyReads := rfl
@[simp] theorem raiseError_freeCtr (e : ErrCode) (v a : Word) : (raiseError e v a s).freeCtr = s.freeCtr := rfl
end raiseError

section resetBlock
variable (s : State)
@[simp] theorem resetBlock_err : (s.resetBlock).err = .eNone := rfl
@[simp] theorem resetBlock_errinfo : (s.resetBlock).errinfo = 0 := rfl
@[simp] theorem resetBlock_erraddr : (s.resetBlock).erraddr = 0 := rfl
@[simp] theorem resetBlock_seed : (s.resetBlock).seed = s.cfg.seedDefault := rfl
@[simp] theorem resetBlock_kbase : (s.resetBlock).kbase = 0 := rfl
@[simp] theorem resetBlock_klen : (s.resetBlock).klen = 0 := rfl
@[simp] theorem resetBlock_opa : (s.resetBlock).opa = Vector.replicate 4 0 := rfl
@[simp] theorem resetBlock_opb : (s.resetBlock).opb = Vector.replicate 4 0 := rfl
@[simp] theorem resetBlock_res : (s.resetBlock).res = none := rfl
@[simp] theorem resetBlock_digest : (s.resetBlock).digest = none := rfl
@[simp] theorem resetBlock_digest512 : (s.resetBlock).digest512 = none := rfl
@[simp] theorem resetBlock_pout : (s.resetBlock).pout = none := rfl
@[simp] theorem resetBlock_pout512 : (s.resetBlock).pout512 = none := rfl
@[simp] theorem resetBlock_seed512 : (s.resetBlock).seed512 = Vector.replicate 8 s.cfg.seedDefault := rfl
@[simp] theorem resetBlock_st : (s.resetBlock).st = none := rfl
@[simp] theorem resetBlock_vs : (s.resetBlock).vs = Vector.replicate 4 0 := rfl
@[simp] theorem resetBlock_st512 : (s.resetBlock).st512 = none := rfl
@[simp] theorem resetBlock_ph : (s.resetBlock).ph = .idle := rfl
@[simp] theorem resetBlock_cur : (s.resetBlock).cur = 0 := rfl
@[simp] theorem resetBlock_lbase : (s.resetBlock).lbase = 0 := rfl
@[simp] theorem resetBlock_llen : (s.resetBlock).llen = 0 := rfl
@[simp] theorem resetBlock_pstate : (s.resetBlock).pstate = none := rfl
@[simp] theorem resetBlock_pctr : (s.resetBlock).pctr = 0 := rfl
@[simp] theorem resetBlock_pstate512 : (s.resetBlock).pstate512 = none := rfl
@[simp] theorem resetBlock_pctr512 : (s.resetBlock).pctr512 = 0 := rfl
@[simp] theorem resetBlock_cfg : (s.resetBlock).cfg = s.cfg := rfl
@[simp] theorem resetBlock_mem : (s.resetBlock).mem = s.mem := rfl
@[simp] theorem resetBlock_inbox : (s.resetBlock).inbox = s.inbox := rfl
@[simp] theorem resetBlock_hostReads : (s.resetBlock).hostReads = s.hostReads := rfl
@[simp] theorem resetBlock_keyReads : (s.resetBlock).keyReads = s.keyReads := rfl
@[simp] theorem resetBlock_freeCtr : (s.resetBlock).freeCtr = s.freeCtr := rfl
end resetBlock

section logKeys
variable (s : State)
@[simp] theorem logKeys_err (as : List Nat) : (s.logKeys as).err = s.err := rfl
@[simp] theorem logKeys_errinfo (as : List Nat) : (s.logKeys as).errinfo = s.errinfo := rfl
@[simp] theorem logKeys_erraddr (as : List Nat) : (s.logKeys as).erraddr = s.erraddr := rfl
@[simp] theorem logKeys_seed (as : List Nat) : (s.logKeys as).seed = s.seed := rfl
@[simp] theorem logKeys_kbase (as : List Nat) : (s.logKeys as).kbase = s.kbase := rfl
@[simp] theorem logKeys_klen (as : List Nat) : (s.logKeys as).klen = s.klen := rfl
@[simp] theorem logKeys_opa (as : List Nat) : (s.logKeys as).opa = s.opa := rfl
@[simp] theorem logKeys_opb (as : List Nat) : (s.logKeys as).opb = s.opb := rfl
@[simp] theorem logKeys_res (as : List Nat) : (s.logKeys as).res = s.res := rfl
@[simp] theorem logKeys_digest (as : List Nat) : (s.logKeys as).digest = s.digest := rfl
@[simp] theorem logKeys_digest512 (as : List Nat) : (s.logKeys as).digest512 = s.digest512 := rfl
@[simp] theorem logKeys_pout (as : List Nat) : (s.logKeys as).pout = s.pout := rfl
@[simp] theorem logKeys_pout512 (as : List Nat) : (s.logKeys as).pout512 = s.pout512 := rfl
@[simp] theorem logKeys_seed512 (as : List Nat) : (s.logKeys as).seed512 = s.seed512 := rfl
@[simp] theorem logKeys_st (as : List Nat) : (s.logKeys as).st = s.st := rfl
@[simp] theorem logKeys_vs (as : List Nat) : (s.logKeys as).vs = s.vs := rfl
@[simp] theorem logKeys_st512 (as : List Nat) : (s.logKeys as).st512 = s.st512 := rfl
@[simp] theorem logKeys_ph (as : List Nat) : (s.logKeys as).ph = s.ph := rfl
@[simp] theorem logKeys_cur (as : List Nat) : (s.logKeys as).cur = s.cur := rfl
@[simp] theorem logKeys_lbase (as : List Nat) : (s.logKeys as).lbase = s.lbase := rfl
@[simp] theorem logKeys_llen (as : List Nat) : (s.logKeys as).llen = s.llen := rfl
@[simp] theorem logKeys_pstate (as : List Nat) : (s.logKeys as).pstate = s.pstate := rfl
@[simp] theorem logKeys_pctr (as : List Nat) : (s.logKeys as).pctr = s.pctr := rfl
@[simp] theorem logKeys_pstate512 (as : List Nat) : (s.logKeys as).pstate512 = s.pstate512 := rfl
@[simp] theorem logKeys_pctr512 (as : List Nat) : (s.logKeys as).pctr512 = s.pctr512 := rfl
@[simp] theorem logKeys_cfg (as : List Nat) : (s.logKeys as).cfg = s.cfg := rfl
@[simp] theorem logKeys_mem (as : List Nat) : (s.logKeys as).mem = s.mem := rfl
@[simp] theorem logKeys_inbox (as : List Nat) : (s.logKeys as).inbox = s.inbox := rfl
@[simp] theorem logKeys_hostReads (as : List Nat) : (s.logKeys as).hostReads = s.hostReads := rfl
@[simp] theorem logKeys_keyReads (as : List Nat) : (s.logKeys as).keyReads = s.keyReads ++ as := rfl
@[simp] theorem logKeys_freeCtr (as : List Nat) : (s.logKeys as).freeCtr = s.freeCtr := rfl
end logKeys

section openHash
variable (s : State)
@[simp] theorem openHash_err : (s.openHash).err = s.err := rfl
@[simp] theorem openHash_errinfo : (s.openHash).errinfo = s.errinfo := rfl
@[simp] theorem openHash_erraddr : (s.openHash).erraddr = s.erraddr := rfl
@[simp] theorem openHash_seed : (s.openHash).seed = s.seed := rfl
@[simp] theorem openHash_kbase : (s.openHash).kbase = s.kbase := rfl
@[simp] theorem openHash_klen : (s.openHash).klen = s.klen := rfl
@[simp] theorem openHash_opa : (s.openHash).opa = s.opa := rfl
@[simp] theorem openHash_opb : (s.openHash).opb = s.opb := rfl
@[simp] theorem openHash_res : (s.openHash).res = s.res := rfl
@[simp] theorem openHash_digest : (s.openHash).digest = none := rfl
@[simp] theorem openHash_digest512 : (s.openHash).digest512 = s.digest512 := rfl
@[simp] theorem openHash_pout : (s.openHash).pout = s.pout := rfl
@[simp] theorem openHash_pout512 : (s.openHash).pout512 = s.pout512 := rfl
@[simp] theorem openHash_seed512 : (s.openHash).seed512 = s.seed512 := rfl
@[simp] theorem openHash_st : (s.openHash).st = some (initState s.cfg s.seed s.klen) := rfl
@[simp] theorem openHash_vs : (s.openHash).vs = Vector.replicate 4 0 := rfl
@[simp] theorem openHash_st512 : (s.openHash).st512 = s.st512 := rfl
@[simp] theorem openHash_ph : (s.openHash).ph = if 512 ≤ s.klen.toNat then .vec else .blk := rfl
@[simp] theorem openHash_cur : (s.openHash).cur = 0 := rfl
@[simp] theorem openHash_lbase : (s.openHash).lbase = s.kbase := rfl
@[simp] theorem openHash_llen : (s.openHash).llen = s.klen := rfl
@[simp] theorem openHash_pstate : (s.openHash).pstate = s.pstate := rfl
@[simp] theorem openHash_pctr : (s.openHash).pctr = s.pctr := rfl
@[simp] theorem openHash_pstate512 : (s.openHash).pstate512 = s.pstate512 := rfl
@[simp] theorem openHash_pctr512 : (s.openHash).pctr512 = s.pctr512 := rfl
@[simp] theorem openHash_cfg : (s.openHash).cfg = s.cfg := rfl
@[simp] theorem openHash_mem : (s.openHash).mem = s.mem := rfl
@[simp] theorem openHash_inbox : (s.openHash).inbox = s.inbox := rfl
@[simp] theorem openHash_hostReads : (s.openHash).hostReads = s.hostReads := rfl
@[simp] theorem openHash_keyReads : (s.openHash).keyReads = s.keyReads := rfl
@[simp] theorem openHash_freeCtr : (s.openHash).freeCtr = s.freeCtr := rfl
end openHash

section putVec
variable (s : State)
@[simp] theorem putVec_err (x : Vector Word 4) : (s.putVec x).err = s.err := rfl
@[simp] theorem putVec_errinfo (x : Vector Word 4) : (s.putVec x).errinfo = s.errinfo := rfl
@[simp] theorem putVec_erraddr (x : Vector Word 4) : (s.putVec x).erraddr = s.erraddr := rfl
@[simp] theorem putVec_seed (x : Vector Word 4) : (s.putVec x).seed = s.seed := rfl
@[simp] theorem putVec_kbase (x : Vector Word 4) : (s.putVec x).kbase = s.kbase := rfl
@[simp] theorem putVec_klen (x : Vector Word 4) : (s.putVec x).klen = s.klen := rfl
@[simp] theorem putVec_opa (x : Vector Word 4) : (s.putVec x).opa = s.opa := rfl
@[simp] theorem putVec_opb (x : Vector Word 4) : (s.putVec x).opb = s.opb := rfl
@[simp] theorem putVec_res (x : Vector Word 4) : (s.putVec x).res = s.res := rfl
@[simp] theorem putVec_digest (x : Vector Word 4) : (s.putVec x).digest = s.digest := rfl
@[simp] theorem putVec_digest512 (x : Vector Word 4) : (s.putVec x).digest512 = s.digest512 := rfl
@[simp] theorem putVec_pout (x : Vector Word 4) : (s.putVec x).pout = s.pout := rfl
@[simp] theorem putVec_pout512 (x : Vector Word 4) : (s.putVec x).pout512 = s.pout512 := rfl
@[simp] theorem putVec_seed512 (x : Vector Word 4) : (s.putVec x).seed512 = s.seed512 := rfl
@[simp] theorem putVec_st (x : Vector Word 4) : (s.putVec x).st = s.st := rfl
@[simp] theorem putVec_vs (x : Vector Word 4) : (s.putVec x).vs = x := rfl
@[simp] theorem putVec_st512 (x : Vector Word 4) : (s.putVec x).st512 = s.st512 := rfl
@[simp] theorem putVec_ph (x : Vector Word 4) : (s.putVec x).ph = s.ph := rfl
@[simp] theorem putVec_cur (x : Vector Word 4) : (s.putVec x).cur = s.cur + 128 := rfl
@[simp] theorem putVec_lbase (x : Vector Word 4) : (s.putVec x).lbase = s.lbase := rfl
@[simp] theorem putVec_llen (x : Vector Word 4) : (s.putVec x).llen = s.llen := rfl
@[simp] theorem putVec_pstate (x : Vector Word 4) : (s.putVec x).pstate = s.pstate := rfl
@[simp] theorem putVec_pctr (x : Vector Word 4) : (s.putVec x).pctr = s.pctr := rfl
@[simp] theorem putVec_pstate512 (x : Vector Word 4) : (s.putVec x).pstate512 = s.pstate512 := rfl
@[simp] theorem putVec_pctr512 (x : Vector Word 4) : (s.putVec x).pctr512 = s.pctr512 := rfl
@[simp] theorem putVec_cfg (x : Vector Word 4) : (s.putVec x).cfg = s.cfg := rfl
@[simp] theorem putVec_mem (x : Vector Word 4) : (s.putVec x).mem = s.mem := rfl
@[simp] theorem putVec_inbox (x : Vector Word 4) : (s.putVec x).inbox = s.inbox := rfl
@[simp] theorem putVec_hostReads (x : Vector Word 4) : (s.putVec x).hostReads = s.hostReads := rfl
@[simp] theorem putVec_keyReads (x : Vector Word 4) : (s.putVec x).keyReads = s.keyReads := rfl
@[simp] theorem putVec_freeCtr (x : Vector Word 4) : (s.putVec x).freeCtr = s.freeCtr := rfl
end putVec

section endVec
variable (s : State)
@[simp] theorem endVec_err (x : Word) : (s.endVec x).err = s.err := rfl
@[simp] theorem endVec_errinfo (x : Word) : (s.endVec x).errinfo = s.errinfo := rfl
@[simp] theorem endVec_erraddr (x : Word) : (s.endVec x).erraddr = s.erraddr := rfl
@[simp] theorem endVec_seed (x : Word) : (s.endVec x).seed = s.seed := rfl
@[simp] theorem endVec_kbase (x : Word) : (s.endVec x).kbase = s.kbase := rfl
@[simp] theorem endVec_klen (x : Word) : (s.endVec x).klen = s.klen := rfl
@[simp] theorem endVec_opa (x : Word) : (s.endVec x).opa = s.opa := rfl
@[simp] theorem endVec_opb (x : Word) : (s.endVec x).opb = s.opb := rfl
@[simp] theorem endVec_res (x : Word) : (s.endVec x).res = s.res := rfl
@[simp] theorem endVec_digest (x : Word) : (s.endVec x).digest = s.digest := rfl
@[simp] theorem endVec_digest512 (x : Word) : (s.endVec x).digest512 = s.digest512 := rfl
@[simp] theorem endVec_pout (x : Word) : (s.endVec x).pout = s.pout := rfl
@[simp] theorem endVec_pout512 (x : Word) : (s.endVec x).pout512 = s.pout512 := rfl
@[simp] theorem endVec_seed512 (x : Word) : (s.endVec x).seed512 = s.seed512 := rfl
@[simp] theorem endVec_st (x : Word) : (s.endVec x).st = some x := rfl
@[simp] theorem endVec_vs (x : Word) : (s.endVec x).vs = s.vs := rfl
@[simp] theorem endVec_st512 (x : Word) : (s.endVec x).st512 = s.st512 := rfl
@[simp] theorem endVec_ph (x : Word) : (s.endVec x).ph = .blk := rfl
@[simp] theorem endVec_cur (x : Word) : (s.endVec x).cur = s.cur := rfl
@[simp] theorem endVec_lbase (x : Word) : (s.endVec x).lbase = s.lbase := rfl
@[simp] theorem endVec_llen (x : Word) : (s.endVec x).llen = s.llen := rfl
@[simp] theorem endVec_pstate (x : Word) : (s.endVec x).pstate = s.pstate := rfl
@[simp] theorem endVec_pctr (x : Word) : (s.endVec x).pctr = s.pctr := rfl
@[simp] theorem endVec_pstate512 (x : Word) : (s.endVec x).pstate512 = s.pstate512 := rfl
@[simp] theorem endVec_pctr512 (x : Word) : (s.endVec x).pctr512 = s.pctr512 := rfl
@[simp] theorem endVec_cfg (x : Word) : (s.endVec x).cfg = s.cfg := rfl
@[simp] theorem endVec_mem (x : Word) : (s.endVec x).mem = s.mem := rfl
@[simp] theorem endVec_inbox (x : Word) : (s.endVec x).inbox = s.inbox := rfl
@[simp] theorem endVec_hostReads (x : Word) : (s.endVec x).hostReads = s.hostReads := rfl
@[simp] theorem endVec_keyReads (x : Word) : (s.endVec x).keyReads = s.keyReads := rfl
@[simp] theorem endVec_freeCtr (x : Word) : (s.endVec x).freeCtr = s.freeCtr := rfl
end endVec

section putBlock
variable (s : State)
@[simp] theorem putBlock_err (x : Word) : (s.putBlock x).err = s.err := rfl
@[simp] theorem putBlock_errinfo (x : Word) : (s.putBlock x).errinfo = s.errinfo := rfl
@[simp] theorem putBlock_erraddr (x : Word) : (s.putBlock x).erraddr = s.erraddr := rfl
@[simp] theorem putBlock_seed (x : Word) : (s.putBlock x).seed = s.seed := rfl
@[simp] theorem putBlock_kbase (x : Word) : (s.putBlock x).kbase = s.kbase := rfl
@[simp] theorem putBlock_klen (x : Word) : (s.putBlock x).klen = s.klen := rfl
@[simp] theorem putBlock_opa (x : Word) : (s.putBlock x).opa = s.opa := rfl
@[simp] theorem putBlock_opb (x : Word) : (s.putBlock x).opb = s.opb := rfl
@[simp] theorem putBlock_res (x : Word) : (s.putBlock x).res = s.res := rfl
@[simp] theorem putBlock_digest (x : Word) : (s.putBlock x).digest = s.digest := rfl
@[simp] theorem putBlock_digest512 (x : Word) : (s.putBlock x).digest512 = s.digest512 := rfl
@[simp] theorem putBlock_pout (x : Word) : (s.putBlock x).pout = s.pout := rfl
@[simp] theorem putBlock_pout512 (x : Word) : (s.putBlock x).pout512 = s.pout512 := rfl
@[simp] theorem putBlock_seed512 (x : Word) : (s.putBlock x).seed512 = s.seed512 := rfl
@[simp] theorem putBlock_st (x : Word) : (s.putBlock x).st = some x := rfl
@[simp] theorem putBlock_vs (x : Word) : (s.putBlock x).vs = s.vs := rfl
@[simp] theorem putBlock_st512 (x : Word) : (s.putBlock x).st512 = s.st512 := rfl
@[simp] theorem putBlock_ph (x : Word) : (s.putBlock x).ph = s.ph := rfl
@[simp] theorem putBlock_cur (x : Word) : (s.putBlock x).cur = s.cur + 64 := rfl
@[simp] theorem putBlock_lbase (x : Word) : (s.putBlock x).lbase = s.lbase := rfl
@[simp] theorem putBlock_llen (x : Word) : (s.putBlock x).llen = s.llen := rfl
@[simp] theorem putBlock_pstate (x : Word) : (s.putBlock x).pstate = s.pstate := rfl
@[simp] theorem putBlock_pctr (x : Word) : (s.putBlock x).pctr = s.pctr := rfl
@[simp] theorem putBlock_pstate512 (x : Word) : (s.putBlock x).pstate512 = s.pstate512 := rfl
@[simp] theorem putBlock_pctr512 (x : Word) : (s.putBlock x).pctr512 = s.pctr512 := rfl
@[simp] theorem putBlock_cfg (x : Word) : (s.putBlock x).cfg = s.cfg := rfl
@[simp] theorem putBlock_mem (x : Word) : (s.putBlock x).mem = s.mem := rfl
@[simp] theorem putBlock_inbox (x : Word) : (s.putBlock x).inbox = s.inbox := rfl
@[simp] theorem putBlock_hostReads (x : Word) : (s.putBlock x).hostReads = s.hostReads := rfl
@[simp] theorem putBlock_keyReads (x : Word) : (s.putBlock x).keyReads = s.keyReads := rfl
@[simp] theorem putBlock_freeCtr (x : Word) : (s.putBlock x).freeCtr = s.freeCtr := rfl
end putBlock

section putTail
variable (s : State)
@[simp] theorem putTail_err (x : Word) : (s.putTail x).err = s.err := rfl
@[simp] theorem putTail_errinfo (x : Word) : (s.putTail x).errinfo = s.errinfo := rfl
@[simp] theorem putTail_erraddr (x : Word) : (s.putTail x).erraddr = s.erraddr := rfl
@[simp] theorem putTail_seed (x : Word) : (s.putTail x).seed = s.seed := rfl
@[simp] theorem putTail_kbase (x : Word) : (s.putTail x).kbase = s.kbase := rfl
@[simp] theorem putTail_klen (x : Word) : (s.putTail x).klen = s.klen := rfl
@[simp] theorem putTail_opa (x : Word) : (s.putTail x).opa = s.opa := rfl
@[simp] theorem putTail_opb (x : Word) : (s.putTail x).opb = s.opb := rfl
@[simp] theorem putTail_res (x : Word) : (s.putTail x).res = s.res := rfl
@[simp] theorem putTail_digest (x : Word) : (s.putTail x).digest = s.digest := rfl
@[simp] theorem putTail_digest512 (x : Word) : (s.putTail x).digest512 = s.digest512 := rfl
@[simp] theorem putTail_pout (x : Word) : (s.putTail x).pout = s.pout := rfl
@[simp] theorem putTail_pout512 (x : Word) : (s.putTail x).pout512 = s.pout512 := rfl
@[simp] theorem putTail_seed512 (x : Word) : (s.putTail x).seed512 = s.seed512 := rfl
@[simp] theorem putTail_st (x : Word) : (s.putTail x).st = some x := rfl
@[simp] theorem putTail_vs (x : Word) : (s.putTail x).vs = s.vs := rfl
@[simp] theorem putTail_st512 (x : Word) : (s.putTail x).st512 = s.st512 := rfl
@[simp] theorem putTail_ph (x : Word) : (s.putTail x).ph = .fin := rfl
@[simp] theorem putTail_cur (x : Word) : (s.putTail x).cur = s.llen := rfl
@[simp] theorem putTail_lbase (x : Word) : (s.putTail x).lbase = s.lbase := rfl
@[simp] theorem putTail_llen (x : Word) : (s.putTail x).llen = s.llen := rfl
@[simp] theorem putTail_pstate (x : Word) : (s.putTail x).pstate = s.pstate := rfl
@[simp] theorem putTail_pctr (x : Word) : (s.putTail x).pctr = s.pctr := rfl
@[simp] theorem putTail_pstate512 (x : Word) : (s.putTail x).pstate512 = s.pstate512 := rfl
@[simp] theorem putTail_pctr512 (x : Word) : (s.putTail x).pctr512 = s.pctr512 := rfl
@[simp] theorem putTail_cfg (x : Word) : (s.putTail x).cfg = s.cfg := rfl
@[simp] theorem putTail_mem (x : Word) : (s.putTail x).mem = s.mem := rfl
@[simp] theorem putTail_inbox (x : Word) : (s.putTail x).inbox = s.inbox := rfl
@[simp] theorem putTail_hostReads (x : Word) : (s.putTail x).hostReads = s.hostReads := rfl
@[simp] theorem putTail_keyReads (x : Word) : (s.putTail x).keyReads = s.keyReads := rfl
@[simp] theorem putTail_freeCtr (x : Word) : (s.putTail x).freeCtr = s.freeCtr := rfl
end putTail

section closeHash
variable (s : State)
@[simp] theorem closeHash_err (x : Word) : (s.closeHash x).err = s.err := rfl
@[simp] theorem closeHash_errinfo (x : Word) : (s.closeHash x).errinfo = s.errinfo := rfl
@[simp] theorem closeHash_erraddr (x : Word) : (s.closeHash x).erraddr = s.erraddr := rfl
@[simp] theorem closeHash_seed (x : Word) : (s.closeHash x).seed = s.seed := rfl
@[simp] theorem closeHash_kbase (x : Word) : (s.closeHash x).kbase = s.kbase := rfl
@[simp] theorem closeHash_klen (x : Word) : (s.closeHash x).klen = s.klen := rfl
@[simp] theorem closeHash_opa (x : Word) : (s.closeHash x).opa = s.opa := rfl
@[simp] theorem closeHash_opb (x : Word) : (s.closeHash x).opb = s.opb := rfl
@[simp] theorem closeHash_res (x : Word) : (s.closeHash x).res = s.res := rfl
@[simp] theorem closeHash_digest (x : Word) : (s.closeHash x).digest = some x := rfl
@[simp] theorem closeHash_digest512 (x : Word) : (s.closeHash x).digest512 = s.digest512 := rfl
@[simp] theorem closeHash_pout (x : Word) : (s.closeHash x).pout = s.pout := rfl
@[simp] theorem closeHash_pout512 (x : Word) : (s.closeHash x).pout512 = s.pout512 := rfl
@[simp] theorem closeHash_seed512 (x : Word) : (s.closeHash x).seed512 = s.seed512 := rfl
@[simp] theorem closeHash_st (x : Word) : (s.closeHash x).st = none := rfl
@[simp] theorem closeHash_vs (x : Word) : (s.closeHash x).vs = s.vs := rfl
@[simp] theorem closeHash_st512 (x : Word) : (s.closeHash x).st512 = s.st512 := rfl
@[simp] theorem closeHash_ph (x : Word) : (s.closeHash x).ph = .idle := rfl
@[simp] theorem closeHash_cur (x : Word) : (s.closeHash x).cur = s.cur := rfl
@[simp] theorem closeHash_lbase (x : Word) : (s.closeHash x).lbase = s.lbase := rfl
@[simp] theorem closeHash_llen (x : Word) : (s.closeHash x).llen = s.llen := rfl
@[simp] theorem closeHash_pstate (x : Word) : (s.closeHash x).pstate = s.pstate := rfl
@[simp] theorem closeHash_pctr (x : Word) : (s.closeHash x).pctr = s.pctr := rfl
@[simp] theorem closeHash_pstate512 (x : Word) : (s.closeHash x).pstate512 = s.pstate512 := rfl
@[simp] theorem closeHash_pctr512 (x : Word) : (s.closeHash x).pctr512 = s.pctr512 := rfl
@[simp] theorem closeHash_cfg (x : Word) : (s.closeHash x).cfg = s.cfg := rfl
@[simp] theorem closeHash_mem (x : Word) : (s.closeHash x).mem = s.mem := rfl
@[simp] theorem closeHash_inbox (x : Word) : (s.closeHash x).inbox = s.inbox := rfl
@[simp] theorem closeHash_hostReads (x : Word) : (s.closeHash x).hostReads = s.hostReads := rfl
@[simp] theorem closeHash_keyReads (x : Word) : (s.closeHash x).keyReads = s.keyReads := rfl
@[simp] theorem closeHash_freeCtr (x : Word) : (s.closeHash x).freeCtr = s.freeCtr := rfl
end closeHash

section dropDigest512
variable (s : State)
@[simp] theorem dropDigest512_err : (s.dropDigest512).err = s.err := rfl
@[simp] theorem dropDigest512_errinfo : (s.dropDigest512).errinfo = s.errinfo := rfl
@[simp] theorem dropDigest512_erraddr : (s.dropDigest512).erraddr = s.erraddr := rfl
@[simp] theorem dropDigest512_seed : (s.dropDigest512).seed = s.seed := rfl
@[simp] theorem dropDigest512_kbase : (s.dropDigest512).kbase = s.kbase := rfl
@[simp] theorem dropDigest512_klen : (s.dropDigest512).klen = s.klen := rfl
@[simp] theorem dropDigest512_opa : (s.dropDigest512).opa = s.opa := rfl
@[simp] theorem dropDigest512_opb : (s.dropDigest512).opb = s.opb := rfl
@[simp] theorem dropDigest512_res : (s.dropDigest512).res = s.res := rfl
@[simp] theorem dropDigest512_digest : (s.dropDigest512).digest = s.digest := rfl
@[simp] theorem dropDigest512_digest512 : (s.dropDigest512).digest512 = none := rfl
@[simp] theorem dropDigest512_pout : (s.dropDigest512).pout = s.pout := rfl
@[simp] theorem dropDigest512_pout512 : (s.dropDigest512).pout512 = s.pout512 := rfl
@[simp] theorem dropDigest512_seed512 : (s.dropDigest512).seed512 = s.seed512 := rfl
@[simp] theorem dropDigest512_st : (s.dropDigest512).st = s.st := rfl
@[simp] theorem dropDigest512_vs : (s.dropDigest512).vs = s.vs := rfl
@[simp] theorem dropDigest512_st512 : (s.dropDigest512).st512 = none := rfl
@[simp] theorem dropDigest512_ph : (s.dropDigest512).ph = s.ph := rfl
@[simp] theorem dropDigest512_cur : (s.dropDigest512).cur = s.cur := rfl
@[simp] theorem dropDigest512_lbase : (s.dropDigest512).lbase = s.lbase := rfl
@[simp] theorem dropDigest512_llen : (s.dropDigest512).llen = s.llen := rfl
@[simp] theorem dropDigest512_pstate : (s.dropDigest512).pstate = s.pstate := rfl
@[simp] theorem dropDigest512_pctr : (s.dropDigest512).pctr = s.pctr := rfl
@[simp] theorem dropDigest512_pstate512 : (s.dropDigest512).pstate512 = s.pstate512 := rfl
@[simp] theorem dropDigest512_pctr512 : (s.dropDigest512).pctr512 = s.pctr512 := rfl
@[simp] theorem dropDigest512_cfg : (s.dropDigest512).cfg = s.cfg := rfl
@[simp] theorem dropDigest512_mem : (s.dropDigest512).mem = s.mem := rfl
@[simp] theorem dropDigest512_inbox : (s.dropDigest512).inbox = s.inbox := rfl
@[simp] theorem dropDigest512_hostReads : (s.dropDigest512).hostReads = s.hostReads := rfl
@[simp] theorem dropDigest512_keyReads : (s.dropDigest512).keyReads = s.keyReads := rfl
@[simp] theorem dropDigest512_freeCtr : (s.dropDigest512).freeCtr = s.freeCtr := rfl
end dropDigest512

section setDigest512
variable (s : State)
@[simp] theorem setDigest512_err (x : Vector Word 8) : (s.setDigest512 x).err = s.err := rfl
@[simp] theorem setDigest512_errinfo (x : Vector Word 8) : (s.setDigest512 x).errinfo = s.errinfo := rfl
@[simp] theorem setDigest512_erraddr (x : Vector Word 8) : (s.setDigest512 x).erraddr = s.erraddr := rfl
@[simp] theorem setDigest512_seed (x : Vector Word 8) : (s.setDigest512 x).seed = s.seed := rfl
@[simp] theorem setDigest512_kbase (x : Vector Word 8) : (s.setDigest512 x).kbase = s.kbase := rfl
@[simp] theorem setDigest512_klen (x : Vector Word 8) : (s.setDigest512 x).klen = s.klen := rfl
@[simp] theorem setDigest512_opa (x : Vector Word 8) : (s.setDigest512 x).opa = s.opa := rfl
@[simp] theorem setDigest512_opb (x : Vector Word 8) : (s.setDigest512 x).opb = s.opb := rfl
@[simp] theorem setDigest512_res (x : Vector Word 8) : (s.setDigest512 x).res = s.res := rfl
@[simp] theorem setDigest512_digest (x : Vector Word 8) : (s.setDigest512 x).digest = s.digest := rfl
@[simp] theorem setDigest512_digest512 (x : Vector Word 8) : (s.setDigest512 x).digest512 = some x := rfl
@[simp] theorem setDigest512_pout (x : Vector Word 8) : (s.setDigest512 x).pout = s.pout := rfl
@[simp] theorem setDigest512_pout512 (x : Vector Word 8) : (s.setDigest512 x).pout512 = s.pout512 := rfl
@[simp] theorem setDigest512_seed512 (x : Vector Word 8) : (s.setDigest512 x).seed512 = s.seed512 := rfl
@[simp] theorem setDigest512_st (x : Vector Word 8) : (s.setDigest512 x).st = s.st := rfl
@[simp] theorem setDigest512_vs (x : Vector Word 8) : (s.setDigest512 x).vs = s.vs := rfl
@[simp] theorem setDigest512_st512 (x : Vector Word 8) : (s.setDigest512 x).st512 = none := rfl
@[simp] theorem setDigest512_ph (x : Vector Word 8) : (s.setDigest512 x).ph = s.ph := rfl
@[simp] theorem setDigest512_cur (x : Vector Word 8) : (s.setDigest512 x).cur = s.cur := rfl
@[simp] theorem setDigest512_lbase (x : Vector Word 8) : (s.setDigest512 x).lbase = s.lbase := rfl
@[simp] theorem setDigest512_llen (x : Vector Word 8) : (s.setDigest512 x).llen = s.llen := rfl
@[simp] theorem setDigest512_pstate (x : Vector Word 8) : (s.setDigest512 x).pstate = s.pstate := rfl
@[simp] theorem setDigest512_pctr (x : Vector Word 8) : (s.setDigest512 x).pctr = s.pctr := rfl
@[simp] theorem setDigest512_pstate512 (x : Vector Word 8) : (s.setDigest512 x).pstate512 = s.pstate512 := rfl
@[simp] theorem setDigest512_pctr512 (x : Vector Word 8) : (s.setDigest512 x).pctr512 = s.pctr512 := rfl
@[simp] theorem setDigest512_cfg (x : Vector Word 8) : (s.setDigest512 x).cfg = s.cfg := rfl
@[simp] theorem setDigest512_mem (x : Vector Word 8) : (s.setDigest512 x).mem = s.mem := rfl
@[simp] theorem setDigest512_inbox (x : Vector Word 8) : (s.setDigest512 x).inbox = s.inbox := rfl
@[simp] theorem setDigest512_hostReads (x : Vector Word 8) : (s.setDigest512 x).hostReads = s.hostReads := rfl
@[simp] theorem setDigest512_keyReads (x : Vector Word 8) : (s.setDigest512 x).keyReads = s.keyReads := rfl
@[simp] theorem setDigest512_freeCtr (x : Vector Word 8) : (s.setDigest512 x).freeCtr = s.freeCtr := rfl
end setDigest512

section seedGen
variable (s : State)
@[simp] theorem seedGen_err : (s.seedGen).err = s.err := rfl
@[simp] theorem seedGen_errinfo : (s.seedGen).errinfo = s.errinfo := rfl
@[simp] theorem seedGen_erraddr : (s.seedGen).erraddr = s.erraddr := rfl
@[simp] theorem seedGen_seed : (s.seedGen).seed = s.seed := rfl
@[simp] theorem seedGen_kbase : (s.seedGen).kbase = s.kbase := rfl
@[simp] theorem seedGen_klen : (s.seedGen).klen = s.klen := rfl
@[simp] theorem seedGen_opa : (s.seedGen).opa = s.opa := rfl
@[simp] theorem seedGen_opb : (s.seedGen).opb = s.opb := rfl
@[simp] theorem seedGen_res : (s.seedGen).res = s.res := rfl
@[simp] theorem seedGen_digest : (s.seedGen).digest = s.digest := rfl
@[simp] theorem seedGen_digest512 : (s.seedGen).digest512 = s.digest512 := rfl
@[simp] theorem seedGen_pout : (s.seedGen).pout = none := rfl
@[simp] theorem seedGen_pout512 : (s.seedGen).pout512 = s.pout512 := rfl
@[simp] theorem seedGen_seed512 : (s.seedGen).seed512 = s.seed512 := rfl
@[simp] theorem seedGen_st : (s.seedGen).st = s.st := rfl
@[simp] theorem seedGen_vs : (s.seedGen).vs = s.vs := rfl
@[simp] theorem seedGen_st512 : (s.seedGen).st512 = s.st512 := rfl
@[simp] theorem seedGen_ph : (s.seedGen).ph = s.ph := rfl
@[simp] theorem seedGen_cur : (s.seedGen).cur = s.cur := rfl
@[simp] theorem seedGen_lbase : (s.seedGen).lbase = s.lbase := rfl
@[simp] theorem seedGen_llen : (s.seedGen).llen = s.llen := rfl
@[simp] theorem seedGen_pstate : (s.seedGen).pstate = some s.seed := rfl
@[simp] theorem seedGen_pctr : (s.seedGen).pctr = 0 := rfl
@[simp] theorem seedGen_pstate512 : (s.seedGen).pstate512 = s.pstate512 := rfl
@[simp] theorem seedGen_pctr512 : (s.seedGen).pctr512 = s.pctr512 := rfl
@[simp] theorem seedGen_cfg : (s.seedGen).cfg = s.cfg := rfl
@[simp] theorem seedGen_mem : (s.seedGen).mem = s.mem := rfl
@[simp] theorem seedGen_inbox : (s.seedGen).inbox = s.inbox := rfl
@[simp] theorem seedGen_hostReads : (s.seedGen).hostReads = s.hostReads := rfl
@[simp] theorem seedGen_keyReads : (s.seedGen).keyReads = s.keyReads := rfl
@[simp] theorem seedGen_freeCtr : (s.seedGen).freeCtr = s.freeCtr := rfl
end seedGen

section stepGen
variable (s : State)
@[simp] theorem stepGen_err (x : Word) : (s.stepGen x).err = s.err := rfl
@[simp] theorem stepGen_errinfo (x : Word) : (s.stepGen x).errinfo = s.errinfo := rfl
@[simp] theorem stepGen_erraddr (x : Word) : (s.stepGen x).erraddr = s.erraddr := rfl
@[simp] theorem stepGen_seed (x : Word) : (s.stepGen x).seed = s.seed := rfl
@[simp] theorem stepGen_kbase (x : Word) : (s.stepGen x).kbase = s.kbase := rfl
@[simp] theorem stepGen_klen (x : Word) : (s.stepGen x).klen = s.klen := rfl
@[simp] theorem stepGen_opa (x : Word) : (s.stepGen x).opa = s.opa := rfl
@[simp] theorem stepGen_opb (x : Word) : (s.stepGen x).opb = s.opb := rfl
@[simp] theorem stepGen_res (x : Word) : (s.stepGen x).res = s.res := rfl
@[simp] theorem stepGen_digest (x : Word) : (s.stepGen x).digest = s.digest := rfl
@[simp] theorem stepGen_digest512 (x : Word) : (s.stepGen x).digest512 = s.digest512 := rfl
@[simp] theorem stepGen_pout (x : Word) : (s.stepGen x).pout = some x := rfl
@[simp] theorem stepGen_pout512 (x : Word) : (s.stepGen x).pout512 = s.pout512 := rfl
@[simp] theorem stepGen_seed512 (x : Word) : (s.stepGen x).seed512 = s.seed512 := rfl
@[simp] theorem stepGen_st (x : Word) : (s.stepGen x).st = s.st := rfl
@[simp] theorem stepGen_vs (x : Word) : (s.stepGen x).vs = s.vs := rfl
@[simp] theorem stepGen_st512 (x : Word) : (s.stepGen x).st512 = s.st512 := rfl
@[simp] theorem stepGen_ph (x : Word) : (s.stepGen x).ph = s.ph := rfl
@[simp] theorem stepGen_cur (x : Word) : (s.stepGen x).cur = s.cur := rfl
@[simp] theorem stepGen_lbase (x : Word) : (s.stepGen x).lbase = s.lbase := rfl
@[simp] theorem stepGen_llen (x : Word) : (s.stepGen x).llen = s.llen := rfl
@[simp] theorem stepGen_pstate (x : Word) : (s.stepGen x).pstate = some x := rfl
@[simp] theorem stepGen_pctr (x : Word) : (s.stepGen x).pctr = s.pctr + 1 := rfl
@[simp] theorem stepGen_pstate512 (x : Word) : (s.stepGen x).pstate512 = s.pstate512 := rfl
@[simp] theorem stepGen_pctr512 (x : Word) : (s.stepGen x).pctr512 = s.pctr512 := rfl
@[simp] theorem stepGen_cfg (x : Word) : (s.stepGen x).cfg = s.cfg := rfl
@[simp] theorem stepGen_mem (x : Word) : (s.stepGen x).mem = s.mem := rfl
@[simp] theorem stepGen_inbox (x : Word) : (s.stepGen x).inbox = s.inbox := rfl
@[simp] theorem stepGen_hostReads (x : Word) : (s.stepGen x).hostReads = s.hostReads := rfl
@[simp] theorem stepGen_keyReads (x : Word) : (s.stepGen x).keyReads = s.keyReads := rfl
@[simp] theorem stepGen_freeCtr (x : Word) : (s.stepGen x).freeCtr = s.freeCtr := rfl
end stepGen

section seedGen512
variable (s : State)
@[simp] theorem seedGen512_err : (s.seedGen512).err = s.err := rfl
@[simp] theorem seedGen512_errinfo : (s.seedGen512).errinfo = s.errinfo := rfl
@[simp] theorem seedGen512_erraddr : (s.seedGen512).erraddr = s.erraddr := rfl
@[simp] theorem seedGen512_seed : (s.seedGen512).seed = s.seed := rfl
@[simp] theorem seedGen512_kbase : (s.seedGen512).kbase = s.kbase := rfl
@[simp] theorem seedGen512_klen : (s.seedGen512).klen = s.klen := rfl
@[simp] theorem seedGen512_opa : (s.seedGen512).opa = s.opa := rfl
@[simp] theorem seedGen512_opb : (s.seedGen512).opb = s.opb := rfl
@[simp] theorem seedGen512_res : (s.seedGen512).res = s.res := rfl
@[simp] theorem seedGen512_digest : (s.seedGen512).digest = s.digest := rfl
@[simp] theorem seedGen512_digest512 : (s.seedGen512).digest512 = s.digest512 := rfl
@[simp] theorem seedGen512_pout : (s.seedGen512).pout = s.pout := rfl
@[simp] theorem seedGen512_pout512 : (s.seedGen512).pout512 = none := rfl
@[simp] theorem seedGen512_seed512 : (s.seedGen512).seed512 = s.seed512 := rfl
@[simp] theorem seedGen512_st : (s.seedGen512).st = s.st := rfl
@[simp] theorem seedGen512_vs : (s.seedGen512).vs = s.vs := rfl
@[simp] theorem seedGen512_st512 : (s.seedGen512).st512 = s.st512 := rfl
@[simp] theorem seedGen512_ph : (s.seedGen512).ph = s.ph := rfl
@[simp] theorem seedGen512_cur : (s.seedGen512).cur = s.cur := rfl
@[simp] theorem seedGen512_lbase : (s.seedGen512).lbase = s.lbase := rfl
@[simp] theorem seedGen512_llen : (s.seedGen512).llen = s.llen := rfl
@[simp] theorem seedGen512_pstate : (s.seedGen512).pstate = s.pstate := rfl
@[simp] theorem seedGen512_pctr : (s.seedGen512).pctr = s.pctr := rfl
@[simp] theorem seedGen512_pstate512 : (s.seedGen512).pstate512 = some s.seed512 := rfl
@[simp] theorem seedGen512_pctr512 : (s.seedGen512).pctr512 = 0 := rfl
@[simp] theorem seedGen512_cfg : (s.seedGen512).cfg = s.cfg := rfl
@[simp] theorem seedGen512_mem : (s.seedGen512).mem = s.mem := rfl
@[simp] theorem seedGen512_inbox : (s.seedGen512).inbox = s.inbox := rfl
@[simp] theorem seedGen512_hostReads : (s.seedGen512).hostReads = s.hostReads := rfl
@[simp] theorem seedGen512_keyReads : (s.seedGen512).keyReads = s.keyReads := rfl
@[simp] theorem seedGen512_freeCtr : (s.seedGen512).freeCtr = s.freeCtr := rfl
end seedGen512

section stepGen512
variable (s : State)
@[simp] theorem stepGen512_err (x : Vector Word 8) : (s.stepGen512 x).err = s.err := rfl
@[simp] theorem stepGen512_errinfo (x : Vector Word 8) : (s.stepGen512 x).errinfo = s.errinfo := rfl
@[simp] theorem stepGen512_erraddr (x : Vector Word 8) : (s.stepGen512 x).erraddr = s.erraddr := rfl
@[simp] theorem stepGen512_seed (x : Vector Word 8) : (s.stepGen512 x).seed = s.seed := rfl
@[simp] theorem stepGen512_kbase (x : Vector Word 8) : (s.stepGen512 x).kbase = s.kbase := rfl
@[simp] theorem stepGen512_klen (x : Vector Word 8) : (s.stepGen512 x).klen = s.klen := rfl
@[simp] theorem stepGen512_opa (x : Vector Word 8) : (s.stepGen512 x).opa = s.opa := rfl
@[simp] theorem stepGen512_opb (x : Vector Word 8) : (s.stepGen512 x).opb = s.opb := rfl
@[simp] theorem stepGen512_res (x : Vector Word 8) : (s.stepGen512 x).res = s.res := rfl
@[simp] theorem stepGen512_digest (x : Vector Word 8) : (s.stepGen512 x).digest = s.digest := rfl
@[simp] theorem stepGen512_digest512 (x : Vector Word 8) : (s.stepGen512 x).digest512 = s.digest512 := rfl
@[simp] theorem stepGen512_pout (x : Vector Word 8) : (s.stepGen512 x).pout = s.pout := rfl
@[simp] theorem stepGen512_pout512 (x : Vector Word 8) : (s.stepGen512 x).pout512 = some x := rfl
@[simp] theorem stepGen512_seed512 (x : Vector Word 8) : (s.stepGen512 x).seed512 = s.seed512 := rfl
@[simp] theorem stepGen512_st (x : Vector Word 8) : (s.stepGen512 x).st = s.st := rfl
@[simp] theorem stepGen512_vs (x : Vector Word 8) : (s.stepGen512 x).vs = s.vs := rfl
@[simp] theorem stepGen512_st512 (x : Vector Word 8) : (s.stepGen512 x).st512 = none := rfl
@[simp] theorem stepGen512_ph (x : Vector Word 8) : (s.stepGen512 x).ph = s.ph := rfl
@[simp] theorem stepGen512_cur (x : Vector Word 8) : (s.stepGen512 x).cur = s.cur := rfl
@[simp] theorem stepGen512_lbase (x : Vector Word 8) : (s.stepGen512 x).lbase = s.lbase := rfl
@[simp] theorem stepGen512_llen (x : Vector Word 8) : (s.stepGen512 x).llen = s.llen := rfl
@[simp] theorem stepGen512_pstate (x : Vector Word 8) : (s.stepGen512 x).pstate = s.pstate := rfl
@[simp] theorem stepGen512_pctr (x : Vector Word 8) : (s.stepGen512 x).pctr = s.pctr := rfl
@[simp] theorem stepGen512_pstate512 (x : Vector Word 8) : (s.stepGen512 x).pstate512 = some x := rfl
@[simp] theorem stepGen512_pctr512 (x : Vector Word 8) : (s.stepGen512 x).pctr512 = s.pctr512 + 1 := rfl
@[simp] theorem stepGen512_cfg (x : Vector Word 8) : (s.stepGen512 x).cfg = s.cfg := rfl
@[simp] theorem stepGen512_mem (x : Vector Word 8) : (s.stepGen512 x).mem = s.mem := rfl
@[simp] theorem stepGen512_inbox (x : Vector Word 8) : (s.stepGen512 x).inbox = s.inbox := rfl
@[simp] theorem stepGen512_hostReads (x : Vector Word 8) : (s.stepGen512 x).hostReads = s.hostReads := rfl
@[simp] theorem stepGen512_keyReads (x : Vector Word 8) : (s.stepGen512 x).keyReads = s.keyReads := rfl
@[simp] theorem stepGen512_freeCtr (x : Vector Word 8) : (s.stepGen512 x).freeCtr = s.freeCtr := rfl
end stepGen512

section setKeyByte
variable (s : State)
@[simp] theorem setKeyByte_err (a : Word) (b : Option Byte) : (s.setKeyByte a b).err = s.err := rfl
@[simp] theorem setKeyByte_errinfo (a : Word) (b : Option Byte) : (s.setKeyByte a b).errinfo = s.errinfo := rfl
@[simp] theorem setKeyByte_erraddr (a : Word) (b : Option Byte) : (s.setKeyByte a b).erraddr = s.erraddr := rfl
@[simp] theorem setKeyByte_seed (a : Word) (b : Option Byte) : (s.setKeyByte a b).seed = s.seed := rfl
@[simp] theorem setKeyByte_kbase (a : Word) (b : Option Byte) : (s.setKeyByte a b).kbase = s.kbase := rfl
@[simp] theorem setKeyByte_klen (a : Word) (b : Option Byte) : (s.setKeyByte a b).klen = s.klen := rfl
@[simp] theorem setKeyByte_opa (a : Word) (b : Option Byte) : (s.setKeyByte a b).opa = s.opa := rfl
@[simp] theorem setKeyByte_opb (a : Word) (b : Option Byte) : (s.setKeyByte a b).opb = s.opb := rfl
@[simp] theorem setKeyByte_res (a : Word) (b : Option Byte) : (s.setKeyByte a b).res = s.res := rfl
@[simp] theorem setKeyByte_digest (a : Word) (b : Option Byte) : (s.setKeyByte a b).digest = s.digest := rfl
@[simp] theorem setKeyByte_digest512 (a : Word) (b : Option Byte) : (s.setKeyByte a b).digest512 = s.digest512 := rfl
@[simp] theorem setKeyByte_pout (a : Word) (b : Option Byte) : (s.setKeyByte a b).pout = s.pout := rfl
@[simp] theorem setKeyByte_pout512 (a : Word) (b : Option Byte) : (s.setKeyByte a b).pout512 = s.pout512 := rfl
@[simp] theorem setKeyByte_seed512 (a : Word) (b : Option Byte) : (s.setKeyByte a b).seed512 = s.seed512 := rfl
@[simp] theorem setKeyByte_st (a : Word) (b : Option Byte) : (s.setKeyByte a b).st = s.st := rfl
@[simp] theorem setKeyByte_vs (a : Word) (b : Option Byte) : (s.setKeyByte a b).vs = s.vs := rfl
@[simp] theorem setKeyByte_st512 (a : Word) (b : Option Byte) : (s.setKeyByte a b).st512 = s.st512 := rfl
@[simp] theorem setKeyByte_ph (a : Word) (b : Option Byte) : (s.setKeyByte a b).ph = s.ph := rfl
@[simp] theorem setKeyByte_cur (a : Word) (b : Option Byte) : (s.setKeyByte a b).cur = s.cur := rfl
@[simp] theorem setKeyByte_lbase (a : Word) (b : Option Byte) : (s.setKeyByte a b).lbase = s.lbase := rfl
@[simp] theorem setKeyByte_llen (a : Word) (b : Option Byte) : (s.setKeyByte a b).llen = s.llen := rfl
@[simp] theorem setKeyByte_pstate (a : Word) (b : Option Byte) : (s.setKeyByte a b).pstate = s.pstate := rfl
@[simp] theorem setKeyByte_pctr (a : Word) (b : Option Byte) : (s.setKeyByte a b).pctr = s.pctr := rfl
@[simp] theorem setKeyByte_pstate512 (a : Word) (b : Option Byte) : (s.setKeyByte a b).pstate512 = s.pstate512 := rfl
@[simp] theorem setKeyByte_pctr512 (a : Word) (b : Option Byte) : (s.setKeyByte a b).pctr512 = s.pctr512 := rfl
@[simp] theorem setKeyByte_cfg (a : Word) (b : Option Byte) : (s.setKeyByte a b).cfg = s.cfg := rfl
@[simp] theorem setKeyByte_mem (a : Word) (b : Option Byte) : (s.setKeyByte a b).mem = Memory.set s.mem a.toNat b := rfl
@[simp] theorem setKeyByte_inbox (a : Word) (b : Option Byte) : (s.setKeyByte a b).inbox = s.inbox := rfl
@[simp] theorem setKeyByte_hostReads (a : Word) (b : Option Byte) : (s.setKeyByte a b).hostReads = s.hostReads := rfl
@[simp] theorem setKeyByte_keyReads (a : Word) (b : Option Byte) : (s.setKeyByte a b).keyReads = s.keyReads := rfl
@[simp] theorem setKeyByte_freeCtr (a : Word) (b : Option Byte) : (s.setKeyByte a b).freeCtr = s.freeCtr := rfl
end setKeyByte

section withFetchWord
variable (s : State)
@[simp] theorem withFetchWord_err (n w : Nat) : (s.withFetchWord n w).err = s.err := rfl
@[simp] theorem withFetchWord_errinfo (n w : Nat) : (s.withFetchWord n w).errinfo = s.errinfo := rfl
@[simp] theorem withFetchWord_erraddr (n w : Nat) : (s.withFetchWord n w).erraddr = s.erraddr := rfl
@[simp] theorem withFetchWord_seed (n w : Nat) : (s.withFetchWord n w).seed = s.seed := rfl
@[simp] theorem withFetchWord_kbase (n w : Nat) : (s.withFetchWord n w).kbase = s.kbase := rfl
@[simp] theorem withFetchWord_klen (n w : Nat) : (s.withFetchWord n w).klen = s.klen := rfl
@[simp] theorem withFetchWord_opa (n w : Nat) : (s.withFetchWord n w).opa = s.opa := rfl
@[simp] theorem withFetchWord_opb (n w : Nat) : (s.withFetchWord n w).opb = s.opb := rfl
@[simp] theorem withFetchWord_res (n w : Nat) : (s.withFetchWord n w).res = s.res := rfl
@[simp] theorem withFetchWord_digest (n w : Nat) : (s.withFetchWord n w).digest = s.digest := rfl
@[simp] theorem withFetchWord_digest512 (n w : Nat) : (s.withFetchWord n w).digest512 = s.digest512 := rfl
@[simp] theorem withFetchWord_pout (n w : Nat) : (s.withFetchWord n w).pout = s.pout := rfl
@[simp] theorem withFetchWord_pout512 (n w : Nat) : (s.withFetchWord n w).pout512 = s.pout512 := rfl
@[simp] theorem withFetchWord_seed512 (n w : Nat) : (s.withFetchWord n w).seed512 = s.seed512 := rfl
@[simp] theorem withFetchWord_st (n w : Nat) : (s.withFetchWord n w).st = s.st := rfl
@[simp] theorem withFetchWord_vs (n w : Nat) : (s.withFetchWord n w).vs = s.vs := rfl
@[simp] theorem withFetchWord_st512 (n w : Nat) : (s.withFetchWord n w).st512 = s.st512 := rfl
@[simp] theorem withFetchWord_ph (n w : Nat) : (s.withFetchWord n w).ph = s.ph := rfl
@[simp] theorem withFetchWord_cur (n w : Nat) : (s.withFetchWord n w).cur = s.cur := rfl
@[simp] theorem withFetchWord_lbase (n w : Nat) : (s.withFetchWord n w).lbase = s.lbase := rfl
@[simp] theorem withFetchWord_llen (n w : Nat) : (s.withFetchWord n w).llen = s.llen := rfl
@[simp] theorem withFetchWord_pstate (n w : Nat) : (s.withFetchWord n w).pstate = s.pstate := rfl
@[simp] theorem withFetchWord_pctr (n w : Nat) : (s.withFetchWord n w).pctr = s.pctr := rfl
@[simp] theorem withFetchWord_pstate512 (n w : Nat) : (s.withFetchWord n w).pstate512 = s.pstate512 := rfl
@[simp] theorem withFetchWord_pctr512 (n w : Nat) : (s.withFetchWord n w).pctr512 = s.pctr512 := rfl
@[simp] theorem withFetchWord_cfg (n w : Nat) : (s.withFetchWord n w).cfg = s.cfg := rfl
@[simp] theorem withFetchWord_mem (n w : Nat) : (s.withFetchWord n w).mem = s.mem := rfl
@[simp] theorem withFetchWord_inbox (n w : Nat) : (s.withFetchWord n w).inbox = .write cmdReg (BitVec.ofNat 64 (w % 2 ^ n)) :: s.inbox := rfl
@[simp] theorem withFetchWord_hostReads (n w : Nat) : (s.withFetchWord n w).hostReads = s.hostReads := rfl
@[simp] theorem withFetchWord_keyReads (n w : Nat) : (s.withFetchWord n w).keyReads = s.keyReads := rfl
@[simp] theorem withFetchWord_freeCtr (n w : Nat) : (s.withFetchWord n w).freeCtr = s.freeCtr := rfl
end withFetchWord

end Sys2Proof.Machine
end

