-- ==== Sys2Proof/Tests/Slice0.lean ====
section
/-! SUPPORT. The model's own tests: decoding of words written out from 30_encoding.md, the well-formedness checks,
single steps with the numbers of the spec's examples, and for every statement with hypotheses a witness of them. -/

open Sys2Proof Sys2Proof.Machine

namespace Sys2Proof.Tests

/-! ### Decoding (30_encoding.md R56, R57, bit by bit: bits 63 to 12 zero, bits 11 to 8 the index, bits 7 to 0 the
opcode) -/

theorem test_decode_nop : decode 0b000000000000 = .ok .nop := by decide
theorem test_decode_srst : decode 0b000000000001 = .ok .srst := by decide
theorem test_decode_mulw : decode 0b000000010000 = .ok .mulw := by decide
theorem test_decode_mumx : decode 0b000000010001 = .ok .mumx := by decide
theorem test_decode_muma : decode 0b000000010010 = .ok .muma := by decide
theorem test_decode_mulw128 : decode 0b000000010100 = .ok .mulw128 := by decide
theorem test_decode_mum128x : decode 0b000000010101 = .ok .mum128x := by decide
theorem test_decode_mum128a : decode 0b000000010110 = .ok .mum128a := by decide
theorem test_decode_vmum32 : decode 0b000000011000 = .ok .vmum32 := by decide
theorem test_decode_mumc_first : decode 0b000000100000 = .ok (.mumc 0) := by decide
theorem test_decode_mumc_middle : decode 0b100100100000 = .ok (.mumc 9) := by decide
theorem test_decode_mumc_last : decode 0b111100100000 = .ok (.mumc 15) := by decide
theorem test_decode_hinit : decode 0b000000110000 = .ok .hinit := by decide
theorem test_decode_vmix : decode 0b000000110001 = .ok .vmix := by decide
theorem test_decode_vred : decode 0b000000110010 = .ok .vred := by decide
theorem test_decode_bmix : decode 0b000000110011 = .ok .bmix := by decide
theorem test_decode_tmix : decode 0b000000110100 = .ok .tmix := by decide
theorem test_decode_hfin : decode 0b000000110101 = .ok .hfin := by decide
theorem test_decode_hash64 : decode 0b000001000000 = .ok .hash64 := by decide
theorem test_decode_vhash64 : decode 0b000001000001 = .ok .vhash64 := by decide
theorem test_decode_hash512 : decode 0b000001000100 = .ok .hash512 := by decide
theorem test_decode_pseed : decode 0b000001010000 = .ok .pseed := by decide
theorem test_decode_pnext : decode 0b000001010001 = .ok .pnext := by decide
theorem test_decode_pseed512 : decode 0b000001010100 = .ok .pseed512 := by decide
theorem test_decode_pnext512 : decode 0b000001010101 = .ok .pnext512 := by decide

theorem test_decode_bit_12 : decode 0b1000000000000 = .error .upperBits := by decide
theorem test_decode_bit_63 : decode 0x8000000000000040 = .error .upperBits := by decide
theorem test_decode_gaps :
    ([0x02, 0x13, 0x17, 0x19, 0x21, 0x36, 0x42, 0x43, 0x45, 0x52, 0x53, 0x56, 0xff] : List Word).all
      (fun v => decide (decode v = .error .unknownOpcode)) = true := by decide
theorem test_decode_index_on_f0 :
    ([0x100, 0x101, 0xf10, 0x140, 0x855] : List Word).all
      (fun v => decide (decode v = .error .operandOnF0)) = true := by decide
theorem test_decodeTableWord : decodeTableWord 64 0xf20 = some (.mumc 15) := by decide
theorem test_encode_mumc : encode (.mumc 9) = 0x920 := by decide

/-! ### Well-formedness (10_state.md R13, R14, 30_encoding.md R58): the test profile passes, and each check refuses a
record that breaks it -/

theorem test_wf_tp0 : Cfg.wf Config.tp0 = true := by decide
theorem test_wf_refuses_sparse_constant :
    Cfg.uniformConsts { Config.tp0 with cInit := 0x0000000000000001 } = false := by decide
theorem test_wf_refuses_sparse_wide_constant :
    Cfg.uniformConsts { Config.tp0 with k512f := Vector.replicate 4 0xffffffffffffffff } = false := by decide
theorem test_wf_refuses_driver_constant_in_table :
    Cfg.driverConstsApart { Config.tp0 with cFinal := 0x5be0cd19137e2179 } = false := by decide
theorem test_wf_refuses_zero_seed : Cfg.seedNonZero { Config.tp0 with seedDefault := 0 } = false := by decide
theorem test_wf_refuses_equal_constants :
    Cfg.constsApart { Config.tp0 with cvr := Vector.replicate 4 0xae5f9156e7b6d99b } = false := by decide
theorem test_wf_whole_record_refused : Cfg.wf { Config.tp0 with seedDefault := 0 } = false := by decide
theorem test_wf_every_index : Instr.wf (.mumc 15) = true := by decide

/-! ### Helpers -/

/-- A key space that holds these bytes from `base` on, and nothing else (the `key` line of 30_encoding.md R61). -/
def keyAt : Nat → List Byte → Memory
  | _, [] => []
  | base, b :: bs => (base, b) :: keyAt (base + 1) bs

theorem keyAt_holds (base : Nat) (bs : List Byte) : KeyHolds (keyAt base bs) base bs := by
  induction bs generalizing base with
  | nil => intro k hk; simp at hk
  | cons b bs ih =>
    intro k hk
    cases k with
    | zero => simp [keyAt, Memory.read]
    | succ k =>
      have := ih (base + 1) k (by simpa using hk)
      rw [show base + (k + 1) = base + 1 + k by omega]
      simpa [keyAt, Memory.read, show base + 1 + k ≠ base by omega] using this

theorem keyAt_above (base a : Nat) (bs : List Byte) (h : base + bs.length ≤ a) : Memory.read (keyAt base bs) a = none := by
  induction bs generalizing base with
  | nil => rfl
  | cons b bs ih =>
    simp only [List.length_cons] at h
    simp only [keyAt, Memory.read, if_neg (show a ≠ base by omega)]
    exact ih (base + 1) (by omega)

theorem keyAt_firstInvalid (base : Nat) (bs : List Byte) : FirstInvalid (keyAt base bs) base bs.length := by
  refine ⟨fun j hj => ?_, keyAt_above _ _ _ (by omega)⟩
  rw [keyAt_holds base bs j hj]
  rfl

/-- `n` bytes of a counting pattern modulo `m`. -/
def pattern (m n : Nat) : List Byte := (List.range n).map fun i => BitVec.ofNat 8 (i % m)

/-- The reset state with operands. -/
def operands (a b : Vector Word 4) : State := { State.reset with opa := a, opb := b }

/-- The reset state with a key and a seed. -/
def keyed (base : Nat) (bs : List Byte) (seed : Word) : State :=
  { State.reset with
    mem := keyAt base bs, kbase := BitVec.ofNat 64 base, klen := BitVec.ofNat 64 bs.length, seed := seed }

/-- An open hash over a key of `len` bytes at `base`, in a phase, with `cur` bytes consumed. -/
def opened (ph : Phase) (base len cur : Nat) (st : Word) (bs : List Byte) : State :=
  { State.reset with
    ph := ph, lbase := BitVec.ofNat 64 base, llen := BitVec.ofNat 64 len, cur := BitVec.ofNat 64 cur, st := some st,
    mem := keyAt (base + cur) bs }

/-- A test of the state a command goes on to. -/
def goesOn (o : Host.Outcome State Fault Refusal) (p : State → Bool) : Bool :=
  match o with
  | .next t => p t
  | .fault _ => false
  | .refused _ => false

/-! ### System and primitive commands (40_primitives.md R81 to R88, the rules' examples) -/

theorem test_nop : goesOn (exec .nop State.reset) (fun t => decide (t = State.reset)) = true := by decide
theorem test_srst_clears_error :
    goesOn (exec .srst { keyed 0 [1] 5 with err := .eSeq, errinfo := 0x33 })
      (fun t => decide (t.err = .eNone ∧ t.errinfo = 0 ∧ t.seed = 0x6f19633143a0af0e ∧ t.mem = [(0, 1)])) = true := by
  decide

theorem test_mulw :
    goesOn (exec .mulw (operands #v[0xffffffffffffffff, 1, 2, 3] #v[0xffffffffffffffff, 4, 5, 6]))
      (fun t => decide (t.res = some #v[1, 0xfffffffffffffffe, 0, 0])) = true := by decide
theorem test_mumx :
    goesOn (exec .mumx (operands #v[0x123456789abcdef0, 0, 0, 0] #v[0x0fedcba987654321, 0, 0, 0]))
      (fun t => decide (t.res = some #v[0x2317228f48165bb2, 0, 0, 0])) = true := by decide
theorem test_muma :
    goesOn (exec .muma (operands #v[0x123456789abcdef0, 0, 0, 0] #v[0x0fedcba987654321, 0, 0, 0]))
      (fun t => decide (t.res = some #v[0x2358d29092d96432, 0, 0, 0])) = true := by decide
theorem test_muma_wraps :
    goesOn (exec .muma (operands #v[0xdeadbeefcafebabe, 0, 0, 0] #v[0x6a09e667f3bcc908, 0, 0, 0]))
      (fun t => decide (t.res = some #v[0x574f803b5c0f05c5, 0, 0, 0])) = true := by decide
theorem test_mulw128 :
    goesOn (exec .mulw128 (operands (Vector.replicate 4 0xffffffffffffffff) (Vector.replicate 4 0xffffffffffffffff)))
      (fun t => decide (t.res = some #v[1, 0, 0xfffffffffffffffe, 0xffffffffffffffff])) = true := by decide
theorem test_mum128x :
    goesOn (exec .mum128x (operands #v[0xfedcba9876543210, 0x0123456789abcdef, 0, 0]
        #v[0x8796a5b4c3d2e1f0, 0x0f1e2d3c4b5a6978, 0, 0]))
      (fun t => decide (t.res = some #v[0x3b25e4f7e905d33c, 0x3b09d6c7e0e50b3b, 0, 0])) = true := by decide
theorem test_mum128a :
    goesOn (exec .mum128a (operands #v[0xfedcba9876543210, 0x0123456789abcdef, 0, 0]
        #v[0x8796a5b4c3d2e1f0, 0x0f1e2d3c4b5a6978, 0, 0]))
      (fun t => decide (t.res = some #v[0xc4d5e6f8091a2b3c, 0x3b2a1907f6e5d4c3, 0, 0])) = true := by decide
theorem test_vmum32 :
    goesOn (exec .vmum32 (operands #v[0, 0xdeadbeef12345678, 1, 2] #v[7, 0xcafebabe9abcdef0, 1, 3]))
      (fun t => decide (t.res = some #v[0, 0x000000002f2dcace, 1, 6])) = true := by decide
theorem test_mumc_block_site :
    goesOn (exec (.mumc 0) (operands #v[0x0123456789abcdef, 0, 0, 0] (Vector.replicate 4 0)))
      (fun t => decide (t.res = some #v[0xed53e022c0d954cc, 0, 0, 0])) = true := by decide
theorem test_mumc_tail_site :
    goesOn (exec (.mumc 8) (operands #v[0x0123456789abcdef, 0, 0, 0] (Vector.replicate 4 0)))
      (fun t => decide (t.res = some #v[0x7754c2bcbfb36327, 0, 0, 0])) = true := by decide

/-! ### Stage commands (the examples of 41_block_tail_final.md R91 to R99, 42_vector_layer.md R109, R110) -/

theorem test_hinit_empty :
    goesOn (exec .hinit (keyed 0 [] 0))
      (fun t => decide (t.st = some 0xa61247179fec0f6c ∧ t.ph = .blk ∧ t.digest = none)) = true := by decide
theorem test_hinit_vector :
    goesOn (exec .hinit { keyed 0x1000 [] 7 with klen := 640 })
      (fun t => decide (t.st = some 0xede315bc1ca6cdf1 ∧ t.ph = .vec ∧ t.lbase = 0x1000 ∧ t.llen = 640)) = true := by
  decide
theorem test_vmix :
    goesOn (exec .vmix (opened .vec 0x1000 512 0 0 (pattern 251 128)))
      (fun t => decide (t.vs = #v[0x0ca615c8, 0x20ffdd2f, 0x377246e5, 0x19547454] ∧ t.cur = 128)) = true := by
  decide +kernel
theorem test_vred :
    goesOn (exec .vred { opened .vec 0 512 512 0xede315bc1ca6cdf1 [] with
        vs := #v[0x0ca615c8, 0x20ffdd2f, 0x377246e5, 0x19547454] })
      (fun t => decide (t.st = some 0xff4abec18acbf84c ∧ t.ph = .blk)) = true := by decide
theorem test_bmix :
    goesOn (exec .bmix (opened .blk 0x1000 70 0 0x72df0264632d5d78 (pattern 256 64)))
      (fun t => decide (t.st = some 0x86ea35f0a65d1aae ∧ t.cur = 64)) = true := by decide
theorem test_bmix_out_of_order :
    goesOn (exec .bmix State.reset) (fun t => decide (t.err = .eSeq ∧ t.errinfo = 0x33)) = true := by decide
theorem test_tmix_partial_word :
    goesOn (exec .tmix (opened .blk 0 1 0 0x29ee73be953e7032 [0x61]))
      (fun t => decide (t.st = some 0x1bf8d338b61f5fa7 ∧ t.ph = .fin ∧ t.cur = 1)) = true := by decide
theorem test_tmix_full_word :
    goesOn (exec .tmix (opened .blk 0 8 0 0xf835225c2d7a41b8 [1, 2, 3, 4, 5, 6, 7, 8]))
      (fun t => decide (t.st = some 0x6e868d2eba9503d9)) = true := by decide
theorem test_hfin :
    goesOn (exec .hfin (opened .fin 0 0 0 0xa61247179fec0f6c []))
      (fun t => decide (t.digest = some 0x99c1d1cab8e4ca6f ∧ statusWord t = 0x10 ∧ t.st = none)) = true := by
  decide

/-! ### Macro and generator commands (43_hash_drivers.md R116, 44_mum512.md R131, 45_prng_system.md R138, R140,
70_reset_and_hazards.md R172) -/

theorem test_hash64 :
    goesOn (exec .hash64 (keyed 0x1000 [0x61] 0))
      (fun t => decide (t.digest = some 0x1e3894e5c8077e60 ∧ statusWord t = 0x10)) = true := by decide
theorem test_hash64_after_reset :
    goesOn (step (State.reset.withFetchWord 64 0x40)) (fun t => decide (t.digest = some 0x3a2e904217f15569)) = true := by
  decide
theorem test_vhash64 :
    goesOn (exec .vhash64 (keyed 0x1000 [0x61] 0)) (fun t => decide (t.digest = some 0x1e3894e5c8077e60)) = true := by
  decide
theorem test_vhash64_key_fault :
    goesOn (exec .vhash64 { keyed 0x1000 [0x61] 0 with klen := 2 })
      (fun t => decide (t.err = .eKeyFault ∧ t.errinfo = 0x41 ∧ t.erraddr = 0x1001 ∧ t.keyReads = [0x1000])) = true := by
  decide
theorem test_hash512 :
    goesOn (exec .hash512 { keyed 0x1000 [0x61, 0x62, 0x63] 0 with seed512 := #v[1, 2, 3, 4, 5, 6, 7, 8] })
      (fun t => decide (t.digest512 = some #v[0x86e82bd8a583c18f, 0xbd7c9929bda26c9b, 0x8b3bf156f6dcc53b,
        0x2224fc215b527e62, 0x1310012b1a7d7665, 0x43c8f13d04d5c875, 0xc8e1641c9a786497, 0x34cb62291f068855])) = true := by
  decide
theorem test_pseed :
    goesOn (exec .pseed { keyed 0 [] 9 with pout := some 3, pctr := 4 })
      (fun t => decide (t.pstate = some 9 ∧ t.pctr = 0 ∧ statusWord t = 0x200)) = true := by decide
theorem test_pnext_first :
    goesOn (exec .pnext { State.reset with pstate := some 0 })
      (fun t => decide (t.pout = some 0xf2a9068566d8ac85 ∧ statusWord t = 0x280)) = true := by decide
theorem test_pnext_second :
    goesOn (exec .pnext { State.reset with pstate := some 0xf2a9068566d8ac85, pctr := 1 })
      (fun t => decide (t.pout = some 0x7d286113bdda852a ∧ t.pctr = 2)) = true := by decide
theorem test_pseed512 :
    goesOn (exec .pseed512 { State.reset with seed512 := Vector.replicate 8 3 })
      (fun t => decide (t.pstate512 = some (Vector.replicate 8 3) ∧ statusWord t = 0x400)) = true := by decide
theorem test_pnext512 :
    goesOn (exec .pnext512 { State.reset with pstate512 := some (Vector.replicate 8 0) })
      (fun t => decide (t.pout512 = some #v[0x9a4779ee143c0402, 0x4946b53588705967, 0xfb1ae83c4ebe59e0,
        0x43cf828400c12d2f, 0xd9de335c2723460a, 0xdbe739bd0a1eb370, 0x3d9ec34c12a09d2f, 0xdd74b336c0807254]
        ∧ statusWord t = 0x500)) = true := by decide
theorem test_pnext512_unseeded :
    goesOn (exec .pnext512 State.reset) (fun t => decide (t.err = .eUnseeded ∧ statusWord t = 5)) = true := by
  decide

/-! ### The properties that hold on samples (43_hash_drivers.md R121)

R121 has a model prove items 1 to 3 and test the rest, without taking them as axioms: item 4 on the seeds of
95b_test_vectors_hash.md section 2.9, with the seed that refutes it for all seeds (90_conflicts.md C4), and item 7 on
the tails of section 2.7. -/

/-- The digests of the empty key, `00` and `00 00`. -/
def zeroKeyDigests (c : Cfg) (seed : Word) : List Word := [h64 c [] seed, h64 c [0] seed, h64 c [0, 0] seed]

/-- TP0 with the profile FP_ADD. -/
def tp0Add : Cfg := { Config.tp0 with fold := Config.fpAdd }

/-- Item 4 under FP_DOC: section 2.9's digests, the three of one seed all different. -/
theorem test_length_sensitivity_fp_doc :
    ([(0x0000000000000000, [0x99c1d1cab8e4ca6f, 0xe73ef96313e6a3c6, 0xd32402579977823c]),
      (0x0000000000000001, [0x0b3a9d0c66485e5a, 0xcd008a068a94252b, 0x59f6c55caddcb063]),
      (0x6f19633143a0af0e, [0x3a2e904217f15569, 0x4cc65c45345ae477, 0x879b099c79194593]),
      (0x00000000deadbeef, [0xb40efc45740dd6b4, 0xd2b566ba14aa27b9, 0x9989b4d3eb20f6b4]),
      (0xffffffffffffffff, [0x6ca97a9540fe541e, 0x48a8909d83aa1649, 0x75c53378b957a65b])] : List (Word × List Word)).all
      (fun r => decide (zeroKeyDigests Config.tp0 r.1 = r.2 ∧ r.2.Nodup)) = true := by
  decide +kernel

/-- Item 4 under FP_ADD. -/
theorem test_length_sensitivity_fp_add :
    ([(0x0000000000000000, [0x11d0b8554bbab5cb, 0x1e52c95ecf349e6f, 0xf24a1a62b686b322]),
      (0x0000000000000001, [0x434d4d9f737be624, 0x3389fea628e1e4d0, 0xeb3befa742200f8b]),
      (0x6f19633143a0af0e, [0x7bec8bf4bf3ff797, 0x94805033d65a9f63, 0xad141472ed75472f]),
      (0x00000000deadbeef, [0x303d3519f4bed631, 0x20d9b9b90b2fa96a, 0xd8eb7e528578a8b2]),
      (0xffffffffffffffff, [0xd1e9e7a7e631603c, 0xc567d69e62b77798, 0xf170859a7b6562e4])] : List (Word × List Word)).all
      (fun r => decide (zeroKeyDigests tp0Add r.1 = r.2 ∧ r.2.Nodup)) = true := by
  decide +kernel

/-- Item 4 does not hold for every seed: with `SEED = C_INIT` all three digests are 0, under both profiles. -/
theorem test_length_sensitivity_fails_at_c_init :
    Config.tp0.cInit = 0x8b43d4570a51b936 ∧ zeroKeyDigests Config.tp0 0x8b43d4570a51b936 = [0, 0, 0]
    ∧ zeroKeyDigests tp0Add 0x8b43d4570a51b936 = [0, 0, 0] := by
  decide

/-- Item 7, every residual length: section 2.7's digests of `P256(R)` for `R = 0 … 63`, all different. -/
theorem test_every_residual_length :
    ((List.range 64).map fun r => h64 Config.tp0 (pattern 256 r) 0) =
     [0x99c1d1cab8e4ca6f, 0xe73ef96313e6a3c6, 0xf6fb730d7e2d3d32, 0xe3af64a61e11ea1f,
      0x815eac8b09c64e5b, 0x24e50db7571045fe, 0x7adc0b5383462824, 0x661038b463f68723,
      0x8f05f9d0a572692c, 0x342b63cb00ea28c3, 0x51de01a343fa7c31, 0x31666895ac4d02a5,
      0x5882968935df4f17, 0x88e03402754e4444, 0xc007cb58146f29d1, 0x66c4920c37e4ca52,
      0x59eb6ebfd115a4ca, 0x2584c2010aa6b0fe, 0xfd599cd751d404a4, 0xd15b2c1d0bdf0a08,
      0x3e97fb8090f74c3e, 0xcf9590fa539dceee, 0x1947495635f48aec, 0xbe50ffccb9a54542,
      0xfdcbd3c95024be9b, 0x955e50e7945e6cf7, 0xe81f53617009715f, 0xff6d032de790752c,
      0xd846ead02cfecc59, 0x062eab629381eaa1, 0x0825ac1ff7b57cbb, 0x5687ecd2ba801f38,
      0xef0f0fba49df4763, 0xe5f871fbe830c35d, 0xbf847fb0e2eb5c08, 0x49a32e60c303a951,
      0xa0e0e57375e5a075, 0x84873862bda95fc8, 0x6e5f6a45134da7f7, 0xcf52d8d9a209cb69,
      0x05632ab774c44a30, 0xa8a1b4f9e10706a8, 0xcf9ec55c85ee289d, 0x43eee0444e607360,
      0x62617445f83db1aa, 0x87b8d659bd2724e9, 0x023f40653c0f5946, 0x21eb7d12256f2b38,
      0x100f7407f57045e3, 0x9474f075056ca87b, 0x5614a05c22354f71, 0x82b0ff2694512035,
      0x85269451d7f54ee8, 0x7d0444b98dabb289, 0x88b3bb900e76755c, 0xc1d1a9dfa00d4500,
      0x6c56d5951ab4db93, 0x48d425578e521292, 0x890444247e5bab83, 0x1fb7a455adc9eb1a,
      0x5ca4390ca2ca234a, 0xe1dd033e35dda6c7, 0xe4a7075a0696478d, 0x917e526fde42deef]
    ∧ ((List.range 64).map fun r => h64 Config.tp0 (pattern 256 r) 0).Nodup := by
  decide +kernel

/-- Item 7, the sample: keys equal but for the last byte, `00`, `01`, `80`, `ff`, behind one block and `R − 1` bytes of
tail, have section 2.7's digests, all different. -/
theorem test_tail_coverage :
    ([(1, [0xdeff7861ac9a484c, 0x5a2be34be2e3b39e, 0xe449136e7fd75c7f, 0xa30a3b6b1df16bc8]),
      (2, [0x493084912b708ec4, 0xef6fb30c61e32220, 0x42511306725ab89f, 0x318ba5362ba99d8c]),
      (7, [0x62ff2cee62d2d2dd, 0x077620c9997545c8, 0xba950708675120a2, 0xf6159714e06e32b9]),
      (8, [0x8296dc7d73aef2aa, 0x1d01128db0061f40, 0x5299e8eaef93bb7f, 0x109f2e63164e65a2]),
      (9, [0xbaf31f11215e38ad, 0x987ac1144709c9d5, 0xf54f1ef4f4b75292, 0x41ebdf20c9e7045a]),
      (16, [0xee9cf63390137a10, 0xb967744f4ee46bd4, 0x2e50425d6a7f8727, 0xf73d9738ffe6ceff]),
      (33, [0xf8f02e898e4196d9, 0x56fe54f43252cb18, 0x102a831e58176be1, 0x3e5c3fa76a6c4d37]),
      (63, [0xf69be1fd7b2ddf8d, 0x8d49b1d8726f0cd3, 0x52897268cbd282a3, 0x45c4ad7b477f0d97])]
      : List (Nat × List Word)).all
      (fun r => decide
        ((([0x00, 0x01, 0x80, 0xff] : List Byte).map fun b => h64 Config.tp0 (pattern 251 (64 + r.1 - 1) ++ [b]) 0) = r.2
          ∧ r.2.Nodup)) = true := by
  decide +kernel

/-! ### The host port (10_state.md R21, R23) -/

theorem test_cfg_word : cfgWord Config.tp0 = 0x2a := by decide
theorem test_cfg_word_fp_add : cfgWord { Config.tp0 with fold := Config.fpAdd } = 0x1ffa := by decide
theorem test_read_only_register :
    goesOn (step { State.reset with inbox := [.write 2 5] }) (fun t => decide (t = State.reset)) = true := by
  decide
theorem test_set_key :
    goesOn (step { keyed 5 [1] 0 with inbox := [.setKey 3 (some 9)] }) (fun t => decide (t.mem = [(3, 9), (5, 1)])) = true := by
  decide
theorem test_illegal_command :
    goesOn (step (State.reset.withFetchWord 64 0x13)) (fun t => decide (t.err = .eIllCmd ∧ t.errinfo = 0x13)) = true := by
  decide

/-! ### Witnesses: for every statement with hypotheses, states and operands that meet them together, each clause at
the boundary of its range -/

/-- The reset state with these transactions issued. -/
def issued (es : List HostEvent) : State := { State.reset with inbox := es }

/-- The same with an error recorded. -/
def failed (es : List HostEvent) : State := { issued es with err := .eKeyFault, erraddr := 9 }

/-- The reset state with every result valid and equal to `v`. -/
def closed (v : Word) : State :=
  { State.reset with
    res := some (Vector.replicate 4 v), digest := some v, digest512 := some (Vector.replicate 8 v), pout := some v,
    pout512 := some (Vector.replicate 8 v) }

theorem witness_IllegalWordRaisesIllcmd :
    ([0x1000, 0x8000000000000000, 0x13, 0xff, 0x100, 0xf55] : List Word).all (fun v =>
      decide ((decode v).toOption = none ∧ (issued [.write 1 v]).inbox = [.write 1 v] ∧ (issued []).err = .eNone))
      = true := by
  decide

theorem witness_StepRunsDecodedCommand :
    (issued [.write 1 0xf20]).inbox = [.write 1 0xf20] ∧ decode 0xf20 = .ok (.mumc 15) ∧ (issued []).inbox = [] := by
  decide

theorem witness_RegisterWriteTakesEffect :
    ((4 : Fin 64).val = 4 ∧ (5 : Fin 64).val = 5 ∧ (6 : Fin 64).val = 6)
    ∧ ((8 : Fin 64).val = 8 + (0 : Fin 4).val ∧ (11 : Fin 64).val = 8 + (3 : Fin 4).val)
    ∧ ((12 : Fin 64).val = 12 + (0 : Fin 4).val ∧ (15 : Fin 64).val = 12 + (3 : Fin 4).val)
    ∧ ((24 : Fin 64).val = 24 + (0 : Fin 8).val ∧ (31 : Fin 64).val = 24 + (7 : Fin 8).val)
    ∧ ((7 : Fin 64).val ∈ ([0, 2, 3, 7] : List Nat) ∧ 16 ≤ (16 : Fin 64).val ∧ (23 : Fin 64).val < 24
      ∧ 32 ≤ (32 : Fin 64).val)
    ∧ (issued [.write 63 1]).inbox = [.write 63 1] := by
  decide

theorem witness_RegisterReadReturnsValue :
    (0 : Fin 64).val = 0 ∧ (2 : Fin 64).val = 2 ∧ (3 : Fin 64).val = 3 ∧ (21 : Fin 64).val = 21
    ∧ (4 : Fin 64).val = 4 ∧ (5 : Fin 64).val = 5 ∧ (6 : Fin 64).val = 6
    ∧ (11 : Fin 64).val = 8 + (3 : Fin 4).val ∧ (15 : Fin 64).val = 12 + (3 : Fin 4).val
    ∧ (31 : Fin 64).val = 24 + (7 : Fin 8).val
    ∧ ((7 : Fin 64).val = 7 ∧ (closed 5).digest = some 5) ∧ ((20 : Fin 64).val = 20 ∧ (closed 5).pout = some 5)
    ∧ ((19 : Fin 64).val = 16 + (3 : Fin 4).val ∧ (closed 5).res = some (Vector.replicate 4 5))
    ∧ ((39 : Fin 64).val = 32 + (7 : Fin 8).val ∧ (closed 5).digest512 = some (Vector.replicate 8 5))
    ∧ ((47 : Fin 64).val = 40 + (7 : Fin 8).val ∧ (closed 5).pout512 = some (Vector.replicate 8 5))
    ∧ (48 ≤ (48 : Fin 64).val ∧ (1 : Fin 64).val = 1 ∧ (22 : Fin 64).val = 22 ∧ (23 : Fin 64).val = 23)
    ∧ (issued [.read 48]).inbox = [.read 48] := by
  decide

theorem witness_WindowBytesLittleEndian :
    (0 : Fin 512).val = 8 * (0 : Fin 64).val + (0 : Fin 8).val
    ∧ (511 : Fin 512).val = 8 * (63 : Fin 64).val + (7 : Fin 8).val := by
  decide

/-- Lists of no byte and of the most bytes each clause on `LE` speaks of. -/
theorem witness_WindowBytesLittleEndian_le :
    ([] : List Byte).length ≤ 8 ∧ (pattern 251 8).length ≤ 8 ∧ (pattern 251 16).length ≤ 16
    ∧ (pattern 251 16).length = 16 := by
  decide

theorem witness_ResetStateValues :
    issued [] = { issued [.hardReset] with inbox := [] } ∧ (issued [.hardReset]).inbox = [.hardReset] := by
  decide

theorem witness_StickyErrorIgnoresCommands :
    (failed [.write 1 1]).err ≠ .eNone ∧ (failed [.write 1 1]).inbox = [.write 1 1] ∧ decode 1 = .ok .srst
    ∧ (failed [.write 1 2]).inbox = [.write 1 2] ∧ decode 2 ≠ .ok .srst
    ∧ (63 : Fin 64) ≠ 1 ∧ (failed [.write 63 2]).inbox = [.write 63 2]
    ∧ (3 : Fin 64) ≠ 2 ∧ (failed [.read 3]).inbox = [.read 3] := by
  decide

theorem witness_KeyChangeIsLocal :
    (issued [.setKey 0xffffffffffffffff none]).inbox = [.setKey 0xffffffffffffffff none]
    ∧ Memory.wf (keyAt 0xffffffffffffffff [1]) = true := by
  decide

theorem witness_EqualReadingKeySpacesAreEqual :
    Memory.wf (keyAt 7 [1, 2]) = true ∧ ∀ a, Memory.read (keyAt 7 [1, 2]) a = Memory.read [(7, 1), (8, 2)] a :=
  ⟨by decide, fun _ => rfl⟩

/-- The hypothesis of the statements about primitives, `SeedingRestartsGenerator` and `GeneratorStreamFollowsContract`,
and their abbreviations. -/
theorem witness_ready_commands :
    State.reset.err = .eNone ∧ (State.reset.opa[0].toNat + 2 ^ 64 * State.reset.opa[1].toNat)
        * (State.reset.opb[0].toNat + 2 ^ 64 * State.reset.opb[1].toNat) = 0
    ∧ State.reset.opa[3].toNat % 2 ^ 32 * (State.reset.opb[3].toNat % 2 ^ 32) = 0 := by
  decide

theorem witness_MumcFoldsWithSiteConstant :
    Fold.add = (if (7 : BitVec 4).toNat ≤ 7 then Config.tp0.fold.fBlk else Config.tp0.fold.fTail)
    ∧ Fold.xor = (if (8 : BitVec 4).toNat ≤ 7 then Config.tp0.fold.fBlk else Config.tp0.fold.fTail) := by
  decide

theorem witness_MultiplyFoldLaws :
    (0xffffffff00000000 : Word).extractLsb' 0 32 = 0
    ∧ (2 ^ 64 - 1) * (2 ^ 64 - 1) = (BitVec.allOnes 64 : Word).toNat * (BitVec.allOnes 64 : Word).toNat
    ∧ (2 ^ 128 - 1) * (2 ^ 128 - 1) = (BitVec.allOnes 128 : DWord).toNat * (BitVec.allOnes 128 : DWord).toNat
    ∧ (2 ^ 32 - 1) * (2 ^ 32 - 1)
      = (BitVec.allOnes 64 : Word).toNat % 2 ^ 32 * ((BitVec.allOnes 64 : Word).toNat % 2 ^ 32) := by
  decide

theorem witness_FoldsDifferAndAllOnesAbsorbs :
    (0x85e0200000000000 : Word) * 0xf4c3c67344040000 = 0x8000000000000000 ∧ (1 : Word) ≠ 0 := by
  decide

/-- Keys of 511 and 512 bytes, and a key that ends at the top of the key space. -/
theorem witness_HinitOpensHash :
    ([(0, 511), (0, 512), (0xffffffffffffff00, 0x100)] : List (Word × Word)).all (fun k =>
      let s := { State.reset with kbase := k.1, klen := k.2 }
      decide (s.err = .eNone ∧ s.klen.toNat ≤ s.cfg.lmax.toNat ∧ s.kbase.toNat + s.klen.toNat ≤ 2 ^ 64)) = true := by
  decide

theorem witness_VmixConsumesVectorBlock :
    ∃ (s : State) (b : List Byte), s.err = .eNone ∧ s.ph = .vec ∧ 128 ≤ s.llen.toNat - s.cur.toNat
      ∧ b.length = 128 ∧ KeyHolds s.mem (s.lbase.toNat + s.cur.toNat) b :=
  ⟨opened .vec 16 512 384 1 (pattern 251 128), pattern 251 128, rfl, rfl, by decide, by simp [pattern], keyAt_holds 400 _⟩

theorem witness_VredReducesVectorState :
    ([0, 127] : List Nat).all (fun left =>
      let s := opened .vec 16 639 (639 - left) 1 []
      decide (s.err = .eNone ∧ s.ph = .vec ∧ s.llen.toNat - s.cur.toNat < 128 ∧ s.st = some 1)) = true := by
  decide

theorem witness_BmixConsumesBlock :
    ∃ (s : State) (x : Word) (b : List Byte), s.err = .eNone ∧ s.ph = .blk ∧ 64 ≤ s.llen.toNat - s.cur.toNat
      ∧ s.st = some x ∧ b.length = 64 ∧ KeyHolds s.mem (s.lbase.toNat + s.cur.toNat) b :=
  ⟨opened .blk 16 128 64 1 (pattern 251 64), 1, pattern 251 64, rfl, rfl, by decide, rfl, by decide, keyAt_holds 80 _⟩

theorem witness_TmixConsumesTail :
    ∃ (s : State) (x : Word) (b : List Byte), s.err = .eNone ∧ s.ph = .blk ∧ s.llen.toNat - s.cur.toNat < 64
      ∧ s.st = some x ∧ b.length = s.llen.toNat - s.cur.toNat ∧ KeyHolds s.mem (s.lbase.toNat + s.cur.toNat) b :=
  ⟨opened .blk 16 127 64 1 (pattern 251 63), 1, pattern 251 63, rfl, rfl, by decide, rfl, by decide, keyAt_holds 80 _⟩

theorem witness_TmixConsumesTail_empty :
    ∃ (s : State) (x : Word) (b : List Byte), s.err = .eNone ∧ s.ph = .blk ∧ s.llen.toNat - s.cur.toNat < 64
      ∧ s.st = some x ∧ b.length = s.llen.toNat - s.cur.toNat ∧ KeyHolds s.mem (s.lbase.toNat + s.cur.toNat) b :=
  ⟨opened .blk 16 64 64 1 [], 1, [], rfl, rfl, by decide, rfl, by decide, keyAt_holds 80 _⟩

theorem witness_HfinWritesDigest :
    (opened .fin 0 5 5 9 []).err = .eNone ∧ (opened .fin 0 5 5 9 []).ph = .fin ∧ (opened .fin 0 5 5 9 []).st = some 9 := by
  decide

/-- Each stage command one byte away from its legal range, and in a wrong phase. -/
theorem witness_OutOfOrderStageRaisesSeq :
    (let s := opened .vec 0 512 385 1 []; ¬(s.ph = .vec ∧ 128 ≤ s.llen.toNat - s.cur.toNat))
    ∧ (let s := opened .vec 0 512 384 1 []; ¬(s.ph = .vec ∧ s.llen.toNat - s.cur.toNat < 128))
    ∧ (let s := opened .blk 0 64 1 1 []; ¬(s.ph = .blk ∧ 64 ≤ s.llen.toNat - s.cur.toNat))
    ∧ (let s := opened .blk 0 64 0 1 []; ¬(s.ph = .blk ∧ s.llen.toNat - s.cur.toNat < 64))
    ∧ (opened .blk 0 64 64 1 []).ph ≠ .fin ∧ (opened .blk 0 64 64 1 []).err = .eNone := by
  decide

/-- The first and the last byte of each read invalid. -/
theorem witness_StageKeyFaultRecorded :
    ∃ (s₁ s₂ s₃ s₄ : State),
      (s₁.err = .eNone ∧ s₁.ph = .vec ∧ 128 ≤ s₁.llen.toNat - s₁.cur.toNat
        ∧ 127 < 128 ∧ FirstInvalid s₁.mem (s₁.lbase.toNat + s₁.cur.toNat) 127)
      ∧ (s₂.err = .eNone ∧ s₂.ph = .blk ∧ 64 ≤ s₂.llen.toNat - s₂.cur.toNat
        ∧ 0 < 64 ∧ FirstInvalid s₂.mem (s₂.lbase.toNat + s₂.cur.toNat) 0)
      ∧ (s₃.err = .eNone ∧ s₃.ph = .blk ∧ s₃.llen.toNat - s₃.cur.toNat < 64
        ∧ 62 < s₃.llen.toNat - s₃.cur.toNat ∧ FirstInvalid s₃.mem (s₃.lbase.toNat + s₃.cur.toNat) 62)
      ∧ (s₄.err = .eNone ∧ s₄.ph = .blk ∧ s₄.llen.toNat - s₄.cur.toNat < 64
        ∧ 0 < s₄.llen.toNat - s₄.cur.toNat ∧ FirstInvalid s₄.mem (s₄.lbase.toNat + s₄.cur.toNat) 0) :=
  ⟨opened .vec 16 512 384 1 (pattern 251 127), opened .blk 16 64 0 1 [], opened .blk 16 127 64 1 (pattern 251 62),
    opened .blk 16 65 64 1 [],
    ⟨rfl, rfl, by decide, by decide, keyAt_firstInvalid 400 (pattern 251 127)⟩,
    ⟨rfl, rfl, by decide, by decide, keyAt_firstInvalid 16 []⟩,
    ⟨rfl, rfl, by decide, by decide, keyAt_firstInvalid 80 (pattern 251 62)⟩,
    ⟨rfl, rfl, by decide, by decide, keyAt_firstInvalid 80 []⟩⟩

theorem witness_BadRangeRaisesRange :
    (let s := { State.reset with klen := 101, cfg := { Config.tp0 with lmax := 100 } };
      s.err = .eNone ∧ s.klen.toNat > s.cfg.lmax.toNat)
    ∧ (let s := { State.reset with kbase := 0xffffffffffffffff, klen := 2 };
      s.err = .eNone ∧ s.kbase.toNat + s.klen.toNat > 2 ^ 64)
    ∧ .vhash64 ∈ ([.hinit, .hash64, .vhash64, .hash512] : List Instr) := by
  decide

theorem witness_TailMixGroupByGroup :
    ([0, 7, 8, 56, 63] : List Nat).all (fun n =>
      decide ((pattern 251 n).length ≤ 63 ∧ n / 8 = (pattern 251 n).length / 8 ∧ n % 8 = (pattern 251 n).length % 8))
      = true := by
  decide

theorem witness_VectorBlockLaneByLane :
    ∃ (c : Cfg) (w : Vector Word 16) (t : Fin 16 → Word),
      ∀ m : Fin 16, t m = mum32 (w[m] ^^^ c.c[m]) ((w[m] ^^^ c.c[m]) >>> 32) :=
  ⟨Config.tp0, Vector.replicate 16 0, _, fun _ => rfl⟩

theorem witness_VectorBlockLaneByLane_lanes :
    ∀ i : Fin 4, (Vector.replicate 4 (0xffffffff : Word))[i].toNat < 2 ^ 32 := by
  decide

theorem witness_VectorWidthsAgree :
    (List.replicate 16 (3 : Word)).length = 16 ∧ ∃ p, p = vecTerms128 (0, 0) (0, 0) ([(3, 5)] : List (Word × Word)) :=
  ⟨rfl, _, rfl⟩

theorem witness_MixTermsCommute : ([(1, 2), (3, 4)] : List (Word × Word)).Perm [(3, 4), (1, 2)] :=
  List.Perm.swap (3, 4) (1, 2) []

theorem witness_NeutralAndCancellingBlocks :
    Config.tp0.fold.aBlk = .xor ∧ ∀ j : Fin 16, Config.tp0.c[j] ≠ 0 := by
  decide

/-- A key one byte below the vector gate. -/
theorem witness_BlockOrderIrrelevant :
    (pattern 251 64).length % 64 = 0 ∧ (pattern 7 64).length = 64 ∧ (pattern 5 64).length = 64
    ∧ (pattern 251 64 ++ pattern 7 64 ++ pattern 5 64 ++ pattern 3 319).length < 512 := by
  simp [pattern]

/-- The hypotheses of `HashCommandComputesH64`, `StageSequenceEqualsHash64` and `Hash512ComputesH512`: the empty key,
and keys of 511 and 512 bytes. -/
theorem witness_whole_hashes (n : Nat) (h : n ∈ [0, 511, 512]) :
    ∃ (s : State) (key : List Byte), s.err = .eNone ∧ s.klen.toNat ≤ s.cfg.lmax.toNat
      ∧ s.kbase.toNat + s.klen.toNat ≤ 2 ^ 64 ∧ key.length = s.klen.toNat ∧ key.length = n
      ∧ KeyHolds s.mem s.kbase.toNat key := by
  have hl : (pattern 251 n).length = n := by simp [pattern]
  have hn : n < 2 ^ 64 - 16 := by
    simp only [List.mem_cons, List.not_mem_nil, or_false] at h
    omega
  have hk : (keyed 16 (pattern 251 n) 0).klen.toNat = n := by
    simp only [keyed, hl, BitVec.toNat_ofNat]
    omega
  have hm : (keyed 16 (pattern 251 n) 0).cfg.lmax.toNat = 2 ^ 64 - 1 := rfl
  have hb : (keyed 16 (pattern 251 n) 0).kbase.toNat = 16 := rfl
  exact ⟨keyed 16 (pattern 251 n) 0, pattern 251 n, rfl, by omega, by omega, by omega, hl, keyAt_holds 16 _⟩

/-- The hypotheses of `HashKeyFaultRecorded` and `Hash512KeyFaultRecorded`: the first byte invalid, and the last. -/
theorem witness_whole_hash_faults :
    ∃ s₁ s₂ : State,
      (s₁.err = .eNone ∧ s₁.klen.toNat ≤ s₁.cfg.lmax.toNat ∧ s₁.kbase.toNat + s₁.klen.toNat ≤ 2 ^ 64
        ∧ 0 < s₁.klen.toNat ∧ FirstInvalid s₁.mem s₁.kbase.toNat 0)
      ∧ (s₂.err = .eNone ∧ s₂.klen.toNat ≤ s₂.cfg.lmax.toNat ∧ s₂.kbase.toNat + s₂.klen.toNat ≤ 2 ^ 64
        ∧ 69 < s₂.klen.toNat ∧ FirstInvalid s₂.mem s₂.kbase.toNat 69) :=
  ⟨{ keyed 16 [] 0 with klen := 1 }, { keyed 16 (pattern 251 69) 0 with klen := 70 },
    ⟨rfl, by decide, by decide, by decide, keyAt_firstInvalid 16 []⟩,
    ⟨rfl, by decide, by decide, by decide, keyAt_firstInvalid 16 (pattern 251 69)⟩⟩

theorem witness_PnextOutputsHash :
    State.reset.err = .eNone ∧ State.reset.pstate = none
    ∧ { State.reset with pstate := some 3 }.pstate = some 3
    ∧ ∃ v, v = h64 Config.tp0 (leBytes (3 ^^^ 0)) Config.tp0.seedDefault :=
  ⟨rfl, rfl, rfl, _, rfl⟩

theorem witness_Pnext512OutputsHash :
    State.reset.err = .eNone ∧ State.reset.pstate512 = none
    ∧ { State.reset with pstate512 := some (Vector.replicate 8 3) }.pstate512 = some (Vector.replicate 8 3)
    ∧ ∃ v, v = h512 Config.tp0 (limbBytes [3, 3, 3, 3, 3, 3, 3, 3]) (Vector.replicate 8 Config.tp0.seedDefault) :=
  ⟨rfl, rfl, rfl, _, rfl⟩

/-- Keys with no tail and with the shortest and the longest one. -/
theorem witness_H512RoundByRound (n : Nat) (h : n ∈ [64, 65, 127]) :
    ∃ (c : Cfg) (key : List Byte) (words : List Byte → Vector DWord 4) (u v x : Vector DWord 4),
      key.length = n ∧ key.length < 2 ^ 64
      ∧ words = (fun b => Vector.ofFn fun q : Fin 4 => BitVec.ofNat 128 (le ((b.drop (16 * q.val)).take 16)))
      ∧ u = (List.range (key.length / 64)).foldl
              (fun u b => round512 c.fold.f512 u (words (key.drop (64 * b))) c.k512b)
              (init512 c (BitVec.ofNat 64 key.length) (Vector.replicate 8 0))
      ∧ v = (if key.length % 64 ≠ 0 then
              round512 c.fold.f512 u
                (words (key.drop (64 * (key.length / 64)) ++ List.replicate (64 - key.length % 64) 0)) c.k512t
            else u)
      ∧ x = round512 c.fold.f512 v #v[0, 0, 0, 0] c.k512f := by
  have hl : (pattern 251 n).length = n := by simp [pattern]
  simp only [List.mem_cons, List.not_mem_nil, or_false] at h
  exact ⟨Config.tp0, pattern 251 n, _, _, _, _, hl, by omega, rfl, rfl, rfl, rfl⟩

theorem witness_GeneratorHashClosedForms :
    ∃ u, u = round512 .xor (init512 Config.tp0 64 (Vector.replicate 8 0)) #v[1, 2, 3, 4] Config.tp0.k512b :=
  ⟨_, rfl⟩

/-- An open hash with a key in the key space and a transaction issued meets the invariant, and its step goes on. -/
theorem witness_StepKeepsInvariant :
    ∃ s t : State, StateInv s ∧ s.ph = .vec ∧ s.inbox ≠ [] ∧ step s = .next t := by
  refine ⟨{ opened .vec 16 512 384 1 [7] with inbox := [.read 2] }, _, ?_, rfl, by decide, rfl⟩
  exact ⟨by decide, by decide, by decide, by decide, by decide, by decide, by decide, by decide, by decide, by decide,
    by decide, by decide, (fun _ h => by cases h), (fun _ h => by cases h), rfl⟩

theorem witness_EveryRunProceeds : StateInv (keyed 16 [1] 5) ∧ Memory.wf (keyAt 0xffffffffffffff00 [1, 2, 3]) = true := by
  exact ⟨⟨by decide, by decide, by decide, by decide, by decide, by decide, by decide, by decide, by decide, by decide,
    by decide, by decide, (fun _ h => by cases h), (fun _ h => by cases h), rfl⟩, by decide⟩

/-- The hypotheses of `CommandsKeepInputs`, `StateGroupsIsolated` and `KeyReadsStayInsideKey`: a command of every group
that goes on, with and without an error. -/
theorem witness_commands_go_on :
    ([.mulw, .hash64, .hash512, .pnext, .pnext512, .hfin] : List Instr).all (fun i =>
      i != .srst && goesOn (exec i (keyed 16 [1] 0)) (fun _ => true)) = true
    ∧ Instr.hash512 ∈ ([.hash64, .vhash64, .hash512] : List Instr)
    ∧ Instr.hfin ∉ ([.hash64, .vhash64, .hash512] : List Instr)
    ∧ isPrimitive .mulw = true ∧ isHash .hash64 = true ∧ isHash .pnext = false
    ∧ goesOn (exec .hfin (keyed 16 [1] 0)) (fun t => decide (t.err ≠ (keyed 16 [1] 0).err)) = true
    ∧ goesOn (exec .pseed (keyed 16 [1] 0)) (fun t => decide (t.err = (keyed 16 [1] 0).err)) = true := by
  decide

/-- `KeyReadsStayInsideKey`, a one-shot hash that faults on its last byte and a stage command: both read something. -/
theorem witness_KeyReadsStayInsideKey :
    goesOn (exec .hash64 { keyed 16 [1] 0 with klen := 2 }) (fun t => decide (t.keyReads = [16] ∧ t.err = .eKeyFault)) = true
    ∧ goesOn (exec .tmix (opened .blk 16 66 64 1 [7, 8])) (fun t => decide (t.keyReads = [80, 81])) = true := by
  decide

end Sys2Proof.Tests
end

section
/-! PROOF. `VLEN`, `STRICT_ALIGN` and `NATIVE_MUL` are unobservable (00_scope.md R5): the mixing functions do not read
them, so every command body commutes with replacing them. The commands are built from a few shared operations
(`andThen`, `performTimes`, `checkRange`, `checkStage`, `withKey`, `withST`, `runCommand`), each of which preserves the
commutation. -/

namespace Sys2Proof

/-- The configuration with another SIMD width, load path or multiplier: what `State.withImpl` does to `State.cfg`. -/
def Cfg.withImpl (c : Cfg) (vlen : VLen) (salign nmul : Bool) : Cfg :=
  { c with vlen := vlen, salign := salign, nmul := nmul }

end Sys2Proof

namespace Sys2Proof.Machine

/-- Apply a function to the state a command's rule leads to. -/
def mapResult (f : State → State) : Result → Result
  | .done s => .done (f s)
  | .raise e a s => .raise e a (f s)
  | .stuck r => .stuck r

/-- A part of a command does the same in a block built with other implementation parameters. -/
def ImplBlind (vlen : VLen) (salign nmul : Bool) (body : State → Result) : Prop :=
  ∀ s, body (s.withImpl vlen salign nmul) = mapResult (fun t => t.withImpl vlen salign nmul) (body s)

section implParameters
variable {vlen : VLen} {salign nmul : Bool}

theorem withImpl_cfg (s : State) : (s.withImpl vlen salign nmul).cfg = s.cfg.withImpl vlen salign nmul := rfl

/-! ### The hash functions -/

theorem vecLoop_withImpl (c : Cfg) (n : Nat) (vs : Vector Word 4) (bs : List Byte) :
    vecLoop (c.withImpl vlen salign nmul) n vs bs = vecLoop c n vs bs := by
  induction n generalizing vs bs with
  | zero => rfl
  | succ n ih => exact ih _ _

theorem blockLoop_withImpl (c : Cfg) (n : Nat) (s : Word) (bs : List Byte) :
    blockLoop (c.withImpl vlen salign nmul) n s bs = blockLoop c n s bs := by
  induction n generalizing s bs with
  | zero => rfl
  | succ n ih => exact ih _ _

theorem blockLoop512_withImpl (c : Cfg) (n : Nat) (u : Vector DWord 4) (bs : List Byte) :
    blockLoop512 (c.withImpl vlen salign nmul) n u bs = blockLoop512 c n u bs := by
  induction n generalizing u bs with
  | zero => rfl
  | succ n ih => exact ih _ _

/-- 42_vector_layer.md R108: the 64-bit digest does not depend on the implementation parameters. -/
theorem h64_withImpl (c : Cfg) (key : List Byte) (seed : Word) :
    h64 (c.withImpl vlen salign nmul) key seed = h64 c key seed := by
  simp only [h64, vecState, vecLoop_withImpl, blockLoop_withImpl]
  rfl

theorem h512_withImpl (c : Cfg) (key : List Byte) (seed : Vector Word 8) :
    h512 (c.withImpl vlen salign nmul) key seed = h512 c key seed := by
  simp only [h512, blockLoop512_withImpl]
  rfl

theorem hp_withImpl (c : Cfg) (x : Word) : hp (c.withImpl vlen salign nmul) x = hp c x :=
  h64_withImpl c _ _

theorem hp512_withImpl (c : Cfg) (x : Vector Word 8) (ctr : Word) :
    hp512 (c.withImpl vlen salign nmul) x ctr = hp512 c x ctr :=
  h512_withImpl c _ _

/-! ### The shared operations -/

/-- A register update that commutes with the replacement. -/
theorem implBlind_done {f : State → State}
    (h : ∀ s, f (s.withImpl vlen salign nmul) = (f s).withImpl vlen salign nmul) :
    ImplBlind vlen salign nmul fun s => .done (f s) :=
  fun s => congrArg Result.done (h s)

theorem implBlind_andThen {p k : State → Result} (hp : ImplBlind vlen salign nmul p)
    (hk : ImplBlind vlen salign nmul k) : ImplBlind vlen salign nmul fun s => andThen (p s) k := by
  intro s
  simp only [hp s]
  cases p s with
  | done t => exact hk t
  | raise e a t => rfl
  | stuck f => rfl

theorem implBlind_performTimes {body : State → Result} (h : ImplBlind vlen salign nmul body) (n : Nat) :
    ImplBlind vlen salign nmul (performTimes body n) := by
  induction n with
  | zero => exact fun _ => rfl
  | succ n ih => exact implBlind_andThen h ih

theorem implBlind_checkStage {k : State → Result} (legal : Bool) (h : ImplBlind vlen salign nmul k) :
    ImplBlind vlen salign nmul (checkStage legal k) := by
  intro s
  cases legal with
  | true => exact h s
  | false => rfl

/-- The range check reads `LMAX` of the configuration and nothing of the implementation. -/
theorem implBlind_checkRange {k : State → Result} (h : ImplBlind vlen salign nmul k) :
    ImplBlind vlen salign nmul (checkRange k) := by
  intro s
  have hr : rangeOk (s.withImpl vlen salign nmul) = rangeOk s := rfl
  cases hs : rangeOk s with
  | true => simpa [checkRange, hr, hs] using h s
  | false => simp [checkRange, hr, hs, raise, mapResult]

/-- `MemRead` reads the key space and the history, neither of which the replacement touches. -/
theorem implBlind_withKey (a n : Nat) {k : List Byte → State → Result} (h : ∀ b, ImplBlind vlen salign nmul (k b)) :
    ImplBlind vlen salign nmul (withKey a n k) := by
  intro s
  have hm : (s.withImpl vlen salign nmul).mem = s.mem := rfl
  have hlog (as : List Nat) :
      (s.withImpl vlen salign nmul).logKeys as = (s.logKeys as).withImpl vlen salign nmul := rfl
  by_cases hn : (Memory.readUpTo s.mem a n).length = n
  · simpa [withKey, hm, hn, hlog] using h _ (s.logKeys _)
  · simp [withKey, hm, hn, hlog, mapResult]

theorem implBlind_withST {k : Word → State → Result} (h : ∀ x, ImplBlind vlen salign nmul (k x)) :
    ImplBlind vlen salign nmul (withST k) := by
  intro s
  have hst : (s.withImpl vlen salign nmul).st = s.st := rfl
  cases hs : s.st with
  | none => rw [withST_invalid k hs, withST_invalid k (hst.trans hs)]; rfl
  | some x => rw [withST_valid k hs, withST_valid k (hst.trans hs)]; exact h x s

/-- The frame of a command carries the commutation from its body to its outcome. -/
theorem runCommand_withImpl (i : Instr) {body : State → Result} (h : ImplBlind vlen salign nmul body) (s : State) :
    runCommand i body (s.withImpl vlen salign nmul)
      = mapNext (fun t => t.withImpl vlen salign nmul) (runCommand i body s) := by
  have herr : (s.withImpl vlen salign nmul).err = s.err := rfl
  by_cases he : s.err = .eNone
  · rw [runCommand_ready i body he, runCommand_ready i body (herr.trans he), h s]
    cases body s <;> rfl
  · rw [runCommand_ignored i body he, runCommand_ignored i body (herr ▸ he)]
    rfl

/-! ### The commands -/

theorem implBlind_performHinit : ImplBlind vlen salign nmul performHinit :=
  implBlind_checkRange (implBlind_done fun _ => rfl)

theorem implBlind_performVmix : ImplBlind vlen salign nmul performVmix := fun s =>
  implBlind_checkStage _
    (fun t => implBlind_withKey t.nextKey 128 (fun _ => implBlind_done fun _ => rfl) t) s

theorem implBlind_performVred : ImplBlind vlen salign nmul performVred := fun s =>
  implBlind_checkStage _ (implBlind_withST fun _ => implBlind_done fun _ => rfl) s

theorem implBlind_performBmix : ImplBlind vlen salign nmul performBmix := fun s =>
  implBlind_checkStage _
    (fun t => implBlind_withKey t.nextKey 64 (fun _ => implBlind_withST fun _ => implBlind_done fun _ => rfl) t) s

theorem implBlind_performTmix : ImplBlind vlen salign nmul performTmix := fun s =>
  implBlind_checkStage _
    (fun t => implBlind_withKey t.nextKey t.left (fun _ => implBlind_withST fun _ => implBlind_done fun _ => rfl) t) s

theorem implBlind_performHfin : ImplBlind vlen salign nmul performHfin := fun s =>
  implBlind_checkStage _ (implBlind_withST fun _ => implBlind_done fun _ => rfl) s

theorem implBlind_performVectorLayer : ImplBlind vlen salign nmul performVectorLayer := by
  intro s
  have hph : (s.withImpl vlen salign nmul).ph = s.ph := rfl
  by_cases hv : s.ph = .vec
  · simp only [performVectorLayer, hph, hv, if_true]
    exact implBlind_andThen (implBlind_performTimes implBlind_performVmix (s.left / 128)) implBlind_performVred s
  · simp only [performVectorLayer, hph, hv, if_false]
    rfl

theorem implBlind_performBlocks : ImplBlind vlen salign nmul performBlocks := fun s =>
  implBlind_performTimes implBlind_performBmix (s.left / 64) s

theorem implBlind_performHash64 : ImplBlind vlen salign nmul performHash64 :=
  implBlind_andThen implBlind_performHinit <|
  implBlind_andThen implBlind_performVectorLayer <|
  implBlind_andThen implBlind_performBlocks <|
  implBlind_andThen implBlind_performTmix implBlind_performHfin

theorem implBlind_performHash512 : ImplBlind vlen salign nmul performHash512 := by
  have hdigest (key : List Byte) :
      ImplBlind vlen salign nmul fun t => .done (t.setDigest512 (h512 t.cfg key t.seed512)) :=
    implBlind_done fun t => by rw [withImpl_cfg, h512_withImpl]; rfl
  exact implBlind_checkRange fun s =>
    implBlind_withKey s.kbase.toNat s.klen.toNat hdigest s.dropDigest512

theorem implBlind_performPnext : ImplBlind vlen salign nmul performPnext := by
  intro s
  have hstate : (s.withImpl vlen salign nmul).pstate = s.pstate := rfl
  cases hs : s.pstate with
  | none => simp only [performPnext, hstate, hs]; rfl
  | some x => simp only [performPnext, hstate, hs, withImpl_cfg, hp_withImpl]; rfl

theorem implBlind_performPnext512 : ImplBlind vlen salign nmul performPnext512 := by
  intro s
  have hstate : (s.withImpl vlen salign nmul).pstate512 = s.pstate512 := rfl
  cases hs : s.pstate512 with
  | none => simp only [performPnext512, hstate, hs]; rfl
  | some x => simp only [performPnext512, hstate, hs, withImpl_cfg, hp512_withImpl]; rfl

/-- Every command's body is blind to the implementation parameters: a register update that does not read them, or one
of the composed bodies above. -/
theorem implBlind_commandBody (i : Instr) : ImplBlind vlen salign nmul (commandBody i) := by
  cases i with
  | nop | srst | mulw | mumx | muma | mulw128 | mum128x | mum128a | vmum32 | mumc | pseed | pseed512 =>
    exact implBlind_done fun _ => rfl
  | hinit => exact implBlind_performHinit
  | vmix => exact implBlind_performVmix
  | vred => exact implBlind_performVred
  | bmix => exact implBlind_performBmix
  | tmix => exact implBlind_performTmix
  | hfin => exact implBlind_performHfin
  | hash64 | vhash64 => exact implBlind_performHash64
  | hash512 => exact implBlind_performHash512
  | pnext => exact implBlind_performPnext
  | pnext512 => exact implBlind_performPnext512

end implParameters

end Sys2Proof.Machine

open Sys2Proof Sys2Proof.Machine

/-- Settles O58, from the blindness of every command's body; `SRST`, which runs outside the common frame, keeps the
configuration it finds. -/
theorem implementationParametersUnobservable : Obligations.ImplementationParametersUnobservable := by
  intro i s vlen salign nmul
  by_cases hi : i = .srst
  · subst hi
    rfl
  · rw [exec_eq_runCommand hi, exec_eq_runCommand hi]
    exact runCommand_withImpl i (implBlind_commandBody i) s
end

section
/-! PROOF. The byte order of the block: the byte view of the register window (10_state.md R32) and `LE` of byte lists
(20_memory.md R41). -/

namespace Sys2Proof.Machine

/-- Dividing an offset of the window gives its register number and the byte within the register
(10_state.md R32). -/
theorem windowByte_eq_byteLane (s : State) {n : Fin 64} {k : Fin 8} {o : Fin 512}
    (ho : o.val = 8 * n.val + k.val) :
    windowByte s o = (regValue s (regOf n)).map (fun v => byteLane v k.val) := by
  have hreg : Fin.ofNat 64 (o.val / 8) = n := Fin.ext (by simp; omega)
  have hbyte : o.val % 8 = k.val := by omega
  rw [windowByte, hreg, hbyte]

/-- The lowest `n` bytes of a register assemble to the register modulo `2^(8n)`: byte `n` is the next digit in
base 256. -/
theorem le_byteLanes (v : Word) (n : Nat) : le ((List.range n).map (byteLane v)) = v.toNat % 256 ^ n := by
  induction n with
  | zero => simp [le, Nat.mod_one]
  | succ n ih =>
    have hlane : (byteLane v n).toNat = v.toNat / 256 ^ n % 256 := by
      rw [byteLane_toNat, pow_mul, show (2 ^ 8 : Nat) = 256 from rfl]
    rw [List.range_succ, List.map_append, le_append, ih, List.length_map, List.length_range, pow_succ,
      Nat.mod_mul, List.map_singleton, le, le, hlane, Nat.mul_zero, Nat.add_zero]

theorem leBytes_eq_map (v : Word) : leBytes v = (List.range 8).map (byteLane v) := rfl

/-- `LE` puts a register together again from its bytes. -/
theorem le_leBytes (v : Word) : le (leBytes v) = v.toNat := by
  rw [leBytes_eq_map, le_byteLanes]
  exact Nat.mod_eq_of_lt v.isLt

/-- `LE` as the sum of 20_memory.md R41: behind one more byte in front every weight is 256 times what it was. -/
theorem le_eq_sum (b : List Byte) :
    le b = ((List.range b.length).map fun i => (b.getD i 0).toNat * 2 ^ (8 * i)).sum := by
  induction b with
  | nil => rfl
  | cons x b ih =>
    have hweight (i : Nat) : ((x :: b).getD (i + 1) 0).toNat * 2 ^ (8 * (i + 1))
        = 256 * ((b.getD i 0).toNat * 2 ^ (8 * i)) := by
      rw [List.getD_cons_succ, Nat.mul_add, pow_add]
      ring
    rw [le, ih, List.length_cons, List.range_succ_eq_map, List.map_cons, List.map_map, List.sum_cons,
      ← List.sum_map_mul_left]
    simp only [Function.comp_def, Nat.succ_eq_add_one, hweight]
    simp

/-- `LE` of at most `n` bytes is below `2^(8n)`. -/
theorem le_lt_of_length_le {b : List Byte} {n : Nat} (h : b.length ≤ n) : le b < 256 ^ n :=
  (le_lt b).trans_le (Nat.pow_le_pow_right (by decide) h)

theorem leWord_toNat {b : List Byte} (h : b.length ≤ 8) : (leWord b).toNat = le b := by
  rw [leWord, BitVec.toNat_ofNat]
  exact Nat.mod_eq_of_lt (le_lt_of_length_le h)

theorem leDWord_toNat {b : List Byte} (h : b.length ≤ 16) : (leDWord b).toNat = le b := by
  rw [leDWord, BitVec.toNat_ofNat]
  exact Nat.mod_eq_of_lt (le_lt_of_length_le h)

/-- A 16-byte word is the word of bytes 8 to 15 above the word of bytes 0 to 7 (20_memory.md R41). -/
theorem leDWord_eq_append {b : List Byte} (h : b.length = 16) :
    leDWord b = leWord (b.drop 8) ++ leWord (b.take 8) := by
  have htake : (b.take 8).length = 8 := by simp [h]
  have hdrop : (b.drop 8).length = 8 := by simp [h]
  apply BitVec.eq_of_toNat_eq
  calc (leDWord b).toNat = le (b.take 8 ++ b.drop 8) := by rw [leDWord_toNat h.le, List.take_append_drop]
    _ = le (b.take 8) + 2 ^ 64 * le (b.drop 8) := by rw [le_append, htake]; norm_num
    _ = (leWord (b.drop 8) ++ leWord (b.take 8) : DWord).toNat := by
      rw [append64_toNat, leWord_toNat htake.le, leWord_toNat hdrop.le]

end Sys2Proof.Machine

open Sys2Proof Sys2Proof.Machine

/-- Settles O9: an offset of the window taken apart into register and byte, and `LE` as numbers in base 256. -/
theorem windowBytesLittleEndian : Obligations.WindowBytesLittleEndian :=
  ⟨fun s _ _ _ ho => windowByte_eq_byteLane s ho, le_leBytes, fun b _ => le_eq_sum b, fun _ => leWord_toNat,
    fun _ => leDWord_toNat, fun _ => leDWord_eq_append, leWords_eq_map⟩
end

section
/-! PROOF. Reset (10_state.md R33): `SRST` and the hard reset are both `State.resetBlock`, whose fields the model's
lemmas list. -/

namespace Sys2Proof.Machine

/-- A step that takes the hard reset (70_reset_and_hazards.md R170). -/
theorem step_hardReset {s : State} {r : List HostEvent} (h : s.inbox = .hardReset :: r) :
    step s = .next (State.resetBlock { s with inbox := r }) := by
  simp [step, fetch, h]

/-- After reset no error is recorded and every valid flag is 0, so `STATUS` reads 0 (10_state.md R25). -/
theorem statusWord_resetBlock (s : State) : statusWord s.resetBlock = 0 := by
  simp only [statusWord, resetBlock_err, resetBlock_digest, resetBlock_res, resetBlock_digest512, resetBlock_pout,
    resetBlock_pout512, resetBlock_pstate, resetBlock_pstate512]
  rfl

end Sys2Proof.Machine

open Sys2Proof Sys2Proof.Machine

/-- Settles O10: both resets lead to `State.resetBlock`, and each field of it is one of the reset values. -/
theorem resetStateValues : Obligations.ResetStateValues := by
  refine ⟨by decide, fun s => ⟨s.resetBlock, exec_srst s, ?hard, ?fields⟩⟩
  case hard =>
    rintro rest u rfl hu
    exact step_hardReset hu
  case fields =>
    simp [statusWord_resetBlock]
end

section
/-! PROOF. The values the decoder refuses (30_encoding.md R59): its three tests in the order of its branches, with
the opcode table as a list of bytes. -/

namespace Sys2Proof

/-- The 23 opcodes of 30_encoding.md R57: those of format F0, and `0x20` of format F1. -/
def opcodes : List (BitVec 8) :=
  [0x00, 0x01, 0x10, 0x11, 0x12, 0x14, 0x15, 0x16, 0x18, 0x20, 0x30, 0x31, 0x32, 0x33,
    0x34, 0x35, 0x40, 0x41, 0x44, 0x50, 0x51, 0x54, 0x55]

/-- A table lookup over the 256 bytes. -/
theorem mem_opcodes_iff : ∀ opc : BitVec 8, opc ∈ opcodes ↔ opc = 0x20 ∨ (f0Command opc).isSome := by
  decide

/-! One equation for each branch of the decoder. -/

section decodeBranches
variable {v : Word}

theorem decode_of_upper_ne_zero (hupper : cmdUpper v ≠ 0) : decode v = .error .upperBits :=
  if_pos hupper

theorem decode_of_opc_mumc (hupper : cmdUpper v = 0) (hopc : cmdOpc v = 0x20) :
    decode v = .ok (.mumc (cmdIdx v)) := by
  rw [decode, if_neg (not_not.mpr hupper), if_pos hopc]

theorem decode_of_f0Command_none (hupper : cmdUpper v = 0) (hopc : cmdOpc v ≠ 0x20)
    (hf0 : f0Command (cmdOpc v) = none) : decode v = .error .unknownOpcode := by
  rw [decode, if_neg (not_not.mpr hupper), if_neg hopc, hf0]

theorem decode_of_f0Command_some {i : Instr} (hupper : cmdUpper v = 0) (hopc : cmdOpc v ≠ 0x20)
    (hf0 : f0Command (cmdOpc v) = some i) :
    decode v = if cmdIdx v ≠ 0 then .error .operandOnF0 else .ok i := by
  rw [decode, if_neg (not_not.mpr hupper), if_neg hopc, hf0]

end decodeBranches

/-- 30_encoding.md R59: a value is refused exactly when it meets one of the tests (a), (b), (c). -/
theorem decode_error_iff (v : Word) :
    (∃ e, decode v = .error e) ↔
      cmdUpper v ≠ 0 ∨ cmdOpc v ∉ opcodes ∨ (cmdOpc v ≠ 0x20 ∧ cmdIdx v ≠ 0) := by
  by_cases hupper : cmdUpper v = 0
  case neg => exact iff_of_true ⟨_, decode_of_upper_ne_zero hupper⟩ (.inl hupper)
  have hmem := mem_opcodes_iff (cmdOpc v)
  by_cases hopc : cmdOpc v = 0x20
  case pos =>
    have hknown : cmdOpc v ∈ opcodes := hmem.mpr (.inl hopc)
    rw [decode_of_opc_mumc hupper hopc]
    exact iff_of_false (by simp) (by rintro (h | h | ⟨h, -⟩) <;> contradiction)
  cases hf0 : f0Command (cmdOpc v) with
  | none =>
    have hunknown : cmdOpc v ∉ opcodes := by simp [hmem, hf0, show cmdOpc v ≠ 32#8 from hopc]
    exact iff_of_true ⟨_, decode_of_f0Command_none hupper hopc hf0⟩ (.inr (.inl hunknown))
  | some i =>
    have hknown : cmdOpc v ∈ opcodes := hmem.mpr (.inr (by rw [hf0]; rfl))
    rw [decode_of_f0Command_some hupper hopc hf0]
    by_cases hidx : cmdIdx v = 0
    · simp [hupper, hknown, hidx]
    · rw [if_pos hidx]
      exact iff_of_true ⟨_, rfl⟩ (.inr (.inr ⟨hopc, hidx⟩))

end Sys2Proof

namespace Sys2Proof.Machine

/-- With no error recorded, an illegal value enters `E_ILLCMD` as 60_exceptions.md R152 says. -/
theorem illegalCommand_of_no_error (v : Word) (s : State) (h : s.err = .eNone) :
    illegalCommand v s =
      { s with err := .eIllCmd, errinfo := v, erraddr := 0, st := none, ph := .idle } := by
  simp [illegalCommand, raiseError, h]

end Sys2Proof.Machine

open Sys2Proof Sys2Proof.Machine

/-- Settles O2: the decoder's refusals are the three tests of R59, and the step that takes a refused value is error
entry alone. -/
theorem illegalWordRaisesIllcmd : Obligations.IllegalWordRaisesIllcmd := by
  refine fun v => ⟨decode_error_iff v, fun s rest e hdecode hinbox herr => ?_⟩
  rw [step_illegal hinbox hdecode, illegalCommand_of_no_error v { s with inbox := rest } herr]
end

section
/-! PROOF. The products and folds as numbers (40_primitives.md part A): what each computes from the exact product of
its operands, and the products synthesised from narrower ones (R71, R77). -/

namespace Sys2Proof.Machine

/-! ### Halves and limbs -/

theorem hi64_eq_ofNat (d : DWord) : hi64 d = BitVec.ofNat 64 (d.toNat / 2 ^ 64) := by
  rw [← hi64_toNat, BitVec.ofNat_toNat, BitVec.setWidth_eq]

theorem lo64_eq_ofNat (d : DWord) : lo64 d = BitVec.ofNat 64 (d.toNat % 2 ^ 64) := by
  rw [← lo64_toNat, BitVec.ofNat_toNat, BitVec.setWidth_eq]

theorem lo64_add_hi64 (d : DWord) : (lo64 d).toNat + 2 ^ 64 * (hi64 d).toNat = d.toNat := by
  rw [lo64_toNat, hi64_toNat, Nat.mod_add_div]

theorem lo128_add_hi128 (q : QWord) : (lo128 q).toNat + 2 ^ 128 * (hi128 q).toNat = q.toNat := by
  rw [lo128_toNat, hi128_toNat, Nat.mod_add_div]

theorem lo32_add_hi32 (v : Word) : (lo32 v).toNat + 2 ^ 32 * (hi32 v).toNat = v.toNat := by
  rw [lo32_toNat, hi32_toNat, Nat.mod_add_div]

/-- The two limbs of `twoLimbs` in `RES[1] ‖ RES[0]`. -/
theorem twoLimbs_value (d : DWord) : (twoLimbs d)[0].toNat + 2 ^ 64 * (twoLimbs d)[1].toNat = d.toNat :=
  lo64_add_hi64 d

/-- The four limbs of `fourLimbs` in `RES[3] ‖ … ‖ RES[0]`. -/
theorem fourLimbs_value (q : QWord) :
    (fourLimbs q)[0].toNat + 2 ^ 64 * (fourLimbs q)[1].toNat + 2 ^ 128 * (fourLimbs q)[2].toNat
      + 2 ^ 192 * (fourLimbs q)[3].toNat = q.toNat := by
  have hlow : (fourLimbs q)[0].toNat + 2 ^ 64 * (fourLimbs q)[1].toNat = (lo128 q).toNat := lo64_add_hi64 (lo128 q)
  have hhigh : (fourLimbs q)[2].toNat + 2 ^ 64 * (fourLimbs q)[3].toNat = (hi128 q).toNat := lo64_add_hi64 (hi128 q)
  have hwhole := lo128_add_hi128 q
  omega

/-! ### Folds of the exact product -/

theorem mumx_eq_ofNat (x y : Word) :
    mumx x y = BitVec.ofNat 64 (x.toNat * y.toNat / 2 ^ 64) ^^^ BitVec.ofNat 64 (x.toNat * y.toNat % 2 ^ 64) := by
  rw [mumx, hi64_eq_ofNat, lo64_eq_ofNat, mulw64_toNat]

theorem muma_toNat (x y : Word) :
    (muma x y).toNat = (x.toNat * y.toNat / 2 ^ 64 + x.toNat * y.toNat % 2 ^ 64) % 2 ^ 64 := by
  rw [muma, BitVec.toNat_add, hi64_toNat, lo64_toNat, mulw64_toNat]

theorem mum128x_toNat (x y : DWord) :
    (mum128x x y).toNat = (x.toNat * y.toNat / 2 ^ 128) ^^^ (x.toNat * y.toNat % 2 ^ 128) := by
  rw [mum128x, BitVec.toNat_xor, hi128_toNat, lo128_toNat, mulw128_toNat]

theorem mum128a_toNat (x y : DWord) :
    (mum128a x y).toNat = (x.toNat * y.toNat / 2 ^ 128 + x.toNat * y.toNat % 2 ^ 128) % 2 ^ 128 := by
  rw [mum128a, BitVec.toNat_add, hi128_toNat, lo128_toNat, mulw128_toNat]

/-- A product of 32-bit operands fits 64 bits. -/
theorem mul32_toNat (a b : BitVec 32) : (BitVec.ofNat 64 (a.toNat * b.toNat)).toNat = a.toNat * b.toNat := by
  rw [BitVec.toNat_ofNat, Nat.mod_eq_of_lt]
  calc a.toNat * b.toNat < 2 ^ 32 * 2 ^ 32 := Nat.mul_lt_mul'' a.isLt b.isLt
    _ = 2 ^ 64 := by norm_num

/-- A 32-bit value keeps its number when zero-extended. -/
theorem zeroExtend32_toNat (a : BitVec 32) : (a.setWidth 64).toNat = a.toNat :=
  BitVec.toNat_setWidth_of_le (by decide)

theorem mum32_toNat (a b : Word) :
    (mum32 a b).toNat = (a.toNat % 2 ^ 32 * (b.toNat % 2 ^ 32) / 2 ^ 32)
      ^^^ (a.toNat % 2 ^ 32 * (b.toNat % 2 ^ 32) % 2 ^ 32) := by
  rw [← lo32_toNat, ← lo32_toNat, mum32, zeroExtend32_toNat, BitVec.toNat_xor, hi32_toNat,
    lo32_toNat (BitVec.ofNat 64 _), mul32_toNat]

/-! ### Products from narrower ones -/

theorem append32_toNat (x y : BitVec 32) : (x ++ y : Word).toNat = y.toNat + 2 ^ 32 * x.toNat := by
  rw [BitVec.toNat_append, ← Nat.shiftLeft_add_eq_or_of_lt y.isLt, Nat.shiftLeft_eq]
  omega

/-- The schoolbook product in base `b`, of operands of two digits. -/
theorem mul_two_digits (b xl xh yl yh : Nat) :
    (xl + b * xh) * (yl + b * yh) = xl * yl + b * (xl * yh + xh * yl) + b * b * (xh * yh) := by
  ring

/-- The four partial products added up in columns, as 40_primitives.md R71 does: `mid` is the column of weight
`2^32`. -/
def sumColumns (ll lh hl hh : Word) : DWord :=
  let mid : Word := (hi32 ll).setWidth 64 + (lo32 lh).setWidth 64 + (lo32 hl).setWidth 64
  (hh + (hi32 lh).setWidth 64 + (hi32 hl).setWidth 64 + (hi32 mid).setWidth 64) ++ (lo32 mid ++ lo32 ll : Word)

theorem mulw64Synth_eq_sumColumns (x y : Word) :
    mulw64Synth x y = sumColumns
      (BitVec.ofNat 64 ((lo32 x).toNat * (lo32 y).toNat)) (BitVec.ofNat 64 ((lo32 x).toNat * (hi32 y).toNat))
      (BitVec.ofNat 64 ((hi32 x).toNat * (lo32 y).toNat)) (BitVec.ofNat 64 ((hi32 x).toNat * (hi32 y).toNat)) :=
  rfl

/-- The columns lose nothing when the sum fits: three 32-bit terms stay below `2^64` in `mid`, and the high word is
below `2^64` because the whole is below `2^128`. -/
theorem sumColumns_toNat {ll lh hl hh : Word}
    (hfits : ll.toNat + 2 ^ 32 * (lh.toNat + hl.toNat) + 2 ^ 32 * 2 ^ 32 * hh.toNat < 2 ^ 128) :
    (sumColumns ll lh hl hh).toNat = ll.toNat + 2 ^ 32 * (lh.toNat + hl.toNat) + 2 ^ 32 * 2 ^ 32 * hh.toNat := by
  rw [sumColumns, append64_toNat, append32_toNat]
  simp only [BitVec.toNat_add, zeroExtend32_toNat, hi32_toNat, lo32_toNat]
  omega

/-- 40_primitives.md R71: the synthesised product is exact. -/
theorem mulw64Synth_toNat (x y : Word) : (mulw64Synth x y).toNat = x.toNat * y.toNat := by
  have hproduct := mul_two_digits (2 ^ 32) (lo32 x).toNat (hi32 x).toNat (lo32 y).toNat (hi32 y).toNat
  rw [lo32_add_hi32, lo32_add_hi32] at hproduct
  have hfits : x.toNat * y.toNat < 2 ^ 128 := mulw64_toNat x y ▸ (mulw64 x y).isLt
  rw [hproduct] at hfits ⊢
  rw [mulw64Synth_eq_sumColumns, sumColumns_toNat] <;> simp only [mul32_toNat]
  exact hfits

/-- 40_primitives.md R77: the synthesised product is exact. -/
theorem mulw128Synth_toNat (x y : DWord) : (mulw128Synth x y).toNat = x.toNat * y.toNat := by
  have hproduct := mul_two_digits (2 ^ 64) (lo64 x).toNat (hi64 x).toNat (lo64 y).toNat (hi64 y).toNat
  rw [lo64_add_hi64, lo64_add_hi64] at hproduct
  rw [← mulw128_toNat, mulw128Synth, mulw128, hproduct]
  simp only [mulw64_toNat]
  congr 2
  ring

end Sys2Proof.Machine

open Sys2Proof Sys2Proof.Machine

/-- Settles O23: both synthesised products are sums of the partial products of two-digit operands. -/
theorem synthesisedProductsAreExact : Obligations.SynthesisedProductsAreExact :=
  ⟨mulw64Synth_toNat, mulw128Synth_toNat⟩
end

section
/-! PROOF. The primitive commands (40_primitives.md part B): each is its result written to `RES`, and each result is
one of the products and folds above. -/

namespace Sys2Proof.Machine

/-- A command whose body writes the result file changes nothing else (40_primitives.md R81 to R88). -/
theorem exec_of_body_setRes {i : Instr} {s : State} {r : Vector Word 4} (herr : s.err = .eNone)
    (hbody : commandBody i s = .done (s.setRes r)) : exec i s = .next { s with res := some r } := by
  have hi : i ≠ .srst := by
    rintro rfl
    have hres : s.resetBlock.res = (s.setRes r).res := congrArg State.res (Result.done.inj hbody)
    simp at hres
  exact exec_done hi herr hbody

/-- A lane of `VMUM32` reads its own entries of `OPA` and `OPB` only. -/
theorem vmum32_lane (a b : Vector Word 4) (i : Fin 4) :
    #v[mum32 a[0] b[0], mum32 a[1] b[1], mum32 a[2] b[2], mum32 a[3] b[3]][i] = mum32 a[i] b[i] :=
  match i with
  | 0 | 1 | 2 | 3 => rfl

end Sys2Proof.Machine

open Sys2Proof Sys2Proof.Machine

/-- Settles O15: the two limbs of the exact product. -/
theorem mulwIsExactProduct : Obligations.MulwIsExactProduct := by
  refine ⟨by decide, fun s herr => ⟨_, exec_of_body_setRes herr rfl, ?_, rfl, rfl⟩⟩
  rw [twoLimbs_value, mulw64_toNat]

/-- Settles O16: `MUMX` of the exact product (40_primitives.md R72). -/
theorem mumxFoldsByXor : Obligations.MumxFoldsByXor :=
  ⟨by decide, fun _ herr => ⟨_, exec_of_body_setRes herr rfl, mumx_eq_ofNat _ _, rfl, rfl, rfl⟩⟩

/-- Settles O17: `MUMA` of the exact product (40_primitives.md R73). -/
theorem mumaFoldsByAdd : Obligations.MumaFoldsByAdd :=
  ⟨by decide, fun _ herr => ⟨_, exec_of_body_setRes herr rfl, muma_toNat _ _, rfl, rfl, rfl⟩⟩

/-- Settles O18: the four limbs of the exact product of the 128-bit operands. -/
theorem mulw128IsExactProduct : Obligations.Mulw128IsExactProduct := by
  refine ⟨by decide, fun s herr => ⟨_, exec_of_body_setRes herr rfl, ?_⟩⟩
  rw [fourLimbs_value, mulw128_toNat, operandA_toNat, operandB_toNat]

/-- Settles O19: the two limbs of `MUM128X` of the exact product (40_primitives.md R78). -/
theorem mum128xFoldsByXor : Obligations.Mum128xFoldsByXor := by
  refine ⟨by decide, fun s herr => ⟨_, exec_of_body_setRes herr rfl, ?_, rfl, rfl⟩⟩
  rintro p rfl
  rw [twoLimbs_value, mum128x_toNat, operandA_toNat, operandB_toNat]

/-- Settles O20: the two limbs of `MUM128A` of the exact product (40_primitives.md R79). -/
theorem mum128aFoldsByAdd : Obligations.Mum128aFoldsByAdd := by
  refine ⟨by decide, fun s herr => ⟨_, exec_of_body_setRes herr rfl, ?_, rfl, rfl⟩⟩
  rintro p rfl
  rw [twoLimbs_value, mum128a_toNat, operandA_toNat, operandB_toNat]

/-- Settles O21, lane by lane: `MUM32` of the lane's own operands (40_primitives.md R80). -/
theorem vmum32LanesIndependent : Obligations.Vmum32LanesIndependent := by
  refine ⟨by decide, fun s herr => ⟨_, exec_of_body_setRes herr rfl, ?_⟩⟩
  rintro i p rfl
  rw [vmum32_lane, mum32_toNat]

/-- Settles O22: `MUM` with the fold of the constant's site, which is the rule's own choice on `idx`. -/
theorem mumcFoldsWithSiteConstant : Obligations.MumcFoldsWithSiteConstant := by
  refine ⟨by decide, fun s idx herr => ⟨_, exec_of_body_setRes herr rfl, ?_, rfl, rfl, rfl⟩⟩
  rintro _ rfl
  exact ⟨fun hxor => congrArg (mum · s.opa[0] s.cfg.c[idx.toFin]) hxor,
    fun hadd => congrArg (mum · s.opa[0] s.cfg.c[idx.toFin]) hadd⟩
end

section
/-! PROOF. The block mixer and the tail mixer (41_block_tail_final.md R92, R95): each zips its words with its constants,
so each is a fold over the index that word and constant share. -/

namespace Sys2Proof.Machine

/-- Accumulating terms listed by an index is a loop over that index. -/
theorem mixTerms_map {ι : Type} (f a : Fold) (s : Word) (is : List ι) (word key : ι → Word) :
    mixTerms f a s (is.map fun i => (word i, key i))
      = is.foldl (fun x i => acc a x (mum f (word i) (key i))) s := by
  rw [mixTerms, List.foldl_map]

/-- 41_block_tail_final.md R92: word `j` is paired with `C[j]`. -/
theorem zip_blockConsts (c : Cfg) (w : Vector Word 8) :
    w.toList.zip (blockConsts c) = (List.finRange 8).map fun j => (w[j], c.c[j.val]'(by omega)) := by
  apply List.ext_getElem
  · simp [blockConsts]
  · intro j _ _
    simp [blockConsts]

/-- Up to eight words against `C[8..15]`: word `i` is paired with `C[8 + i]`. -/
theorem zip_tailConsts (c : Cfg) {n : Nat} (hn : n ≤ 8) (word : Nat → Word) :
    ((List.range n).map word).zip (tailConsts c)
      = (List.range n).map fun i => (word i, c.c.toList.getD (8 + i) 0) := by
  apply List.ext_getElem
  · have hlen : (tailConsts c).length = 8 := by simp [tailConsts]
    simp [hlen, hn]
  · intro i hi _
    have hin : i < n := by
      simp only [List.length_zip, List.length_map, List.length_range] at hi
      omega
    have hconst : 8 + i < 16 := by omega
    simp [tailConsts, hconst]

/-- The `i`-th 8-byte group of a tail, full or partial (41_block_tail_final.md R95). -/
def tailGroup (t : List Byte) (i : Nat) : Word := leWord ((t.drop (8 * i)).take 8)

/-- With no bytes over, the groups are the full words. -/
theorem tailGroups_full {t : List Byte} (h : t.length % 8 = 0) :
    tailGroups t = (List.range (t.length / 8)).map (tailGroup t) := by
  rw [tailGroups, if_neg (not_not.mpr h), List.append_nil, leWords_eq_map]
  rfl

/-- The bytes left over are one more group: fewer than eight of them are there to take. -/
theorem tailGroup_partial (t : List Byte) : tailGroup t (t.length / 8) = leWord (t.drop (8 * (t.length / 8))) := by
  rw [tailGroup, List.take_of_length_le]
  rw [List.length_drop]
  omega

theorem tailGroups_partial {t : List Byte} (h : t.length % 8 ≠ 0) :
    tailGroups t = (List.range (t.length / 8 + 1)).map (tailGroup t) := by
  rw [tailGroups, if_pos h, leWords_eq_map, List.range_succ, List.map_append, List.map_singleton, tailGroup_partial]
  rfl

/-- A tail of `n` groups is mixed by a loop over the groups (41_block_tail_final.md R95). -/
theorem tailMix_eq_foldl (c : Cfg) (s : Word) {t : List Byte} {n : Nat} (hn : n ≤ 8)
    (hgroups : tailGroups t = (List.range n).map (tailGroup t)) :
    tailMix c s t = (List.range n).foldl
      (fun x i => acc c.fold.aTail x (mum c.fold.fTail (tailGroup t i) (c.c.toList.getD (8 + i) 0))) s := by
  rw [tailMix, hgroups, zip_tailConsts c hn, mixTerms_map]

end Sys2Proof.Machine

open Sys2Proof Sys2Proof.Machine

/-- Settles O35: the zip with `C[0..7]`, read by its index. -/
theorem blockMixWordByWord : Obligations.BlockMixWordByWord := by
  intro c s w
  rw [blockMix, zip_blockConsts, mixTerms_map]

/-- Settles O36: with no bytes over, the loop over the full words; else that loop and one more round. -/
theorem tailMixGroupByGroup : Obligations.TailMixGroupByGroup := by
  rintro c s t nw r hlen rfl rfl full rfl
  by_cases hr : t.length % 8 = 0
  · rw [if_neg (not_not.mpr hr), tailMix_eq_foldl c s (by omega) (tailGroups_full hr)]
    rfl
  · rw [if_pos hr, tailMix_eq_foldl c s (by omega) (tailGroups_partial hr), List.range_succ, List.foldl_append,
      List.foldl_cons, List.foldl_nil, tailGroup_partial]
    rfl
end

section
/-! PROOF. The commands that open and close a 64-bit hash (41_block_tail_final.md R91, R99). -/

open Sys2Proof Sys2Proof.Machine

/-- Settles O26: a legal range leads to `State.openHash`, whose `ST` is `INIT` of seed and length (R90). -/
theorem hinitOpensHash : Obligations.HinitOpensHash := by
  refine ⟨by decide, fun s herr hlen hrange => ?_⟩
  have hbody : commandBody .hinit s = .done s.openHash := performHinit_ok ((rangeOk_iff s).mpr ⟨hlen, hrange⟩)
  exact exec_done (by decide) herr hbody

/-- Settles O31: in phase `FIN` the body is `State.closeHash` of `FINAL(ST)` (R98). -/
theorem hfinWritesDigest : Obligations.HfinWritesDigest := by
  refine ⟨by decide, fun s x herr hph hst => ?_⟩
  have hbody : commandBody .hfin s = .done (s.closeHash (finalMix s.cfg x)) := performHfin_ok hph hst
  exact exec_done (by decide) herr hbody
end

section
/-! PROOF. The invariant holds along every run (41_block_tail_final.md R101): each named update of the state keeps it
where its command performs it, each shared operation of a command passes it on, and so every step goes on with it. -/

namespace Sys2Proof.Machine

/-! ### Lanes of the vector state -/

/-- 42_vector_layer.md R106: bits `[63:32]` of every lane are 0. -/
def LanesNarrow (vs : Vector Word 4) : Prop := ∀ i : Fin 4, vs[i].toNat < 2 ^ 32

theorem lanesNarrow_zero : LanesNarrow (Vector.replicate 4 0) := by
  unfold LanesNarrow
  decide

/-- `MUM32` answers a zero-extended 32-bit value (40_primitives.md R80). -/
theorem mum32_lt (a b : Word) : (mum32 a b).toNat < 2 ^ 32 := by
  rw [mum32, zeroExtend32_toNat]
  exact BitVec.isLt _

theorem LanesNarrow.xorLane {vs : Vector Word 4} (h : LanesNarrow vs) (lane : Fin 4) {t : Word}
    (ht : t.toNat < 2 ^ 32) : LanesNarrow (xorLane vs lane t) := by
  intro i
  have hxor : (vs[lane] ^^^ t).toNat < 2 ^ 32 := by
    rw [BitVec.toNat_xor]
    exact Nat.xor_lt_two_pow (h lane) ht
  by_cases hi : lane = i
  · simpa [Machine.xorLane, hi] using hxor
  · simpa [Machine.xorLane, Vector.getElem_set, Fin.val_inj, hi] using h i

theorem LanesNarrow.vecTerms (terms : List (Word × Word)) (m : Nat) {vs : Vector Word 4} (h : LanesNarrow vs) :
    LanesNarrow (vecTerms m vs terms) := by
  induction terms generalizing m vs with
  | nil => exact h
  | cons t terms ih => exact ih (m + 1) (h.xorLane _ (mum32_lt _ _))

theorem LanesNarrow.vecBlock {vs : Vector Word 4} (h : LanesNarrow vs) (c : Cfg) (w : List Word) :
    LanesNarrow (vecBlock c vs w) :=
  h.vecTerms _ 0

/-! ### The invariant with no error recorded, and the register updates that keep it -/

/-- What a command that is not ignored starts from (60_exceptions.md R153). -/
def Ready (s : State) : Prop := StateInv s ∧ s.err = .eNone

section updates
variable {s : State}

theorem Ready.inv (h : Ready s) : StateInv s := h.left

theorem Ready.noError (h : Ready s) : s.err = .eNone := h.right

/-- `CUR` moved on by no more than what is left does not wrap and stays inside the key. -/
theorem cur_add_toNat {n : Nat} (hcur : s.cur.toNat ≤ s.llen.toNat) (hleft : n ≤ s.left) :
    (s.cur + BitVec.ofNat 64 n).toNat = s.cur.toNat + n ∧ s.cur.toNat + n ≤ s.llen.toNat := by
  have hlen := s.llen.isLt
  simp only [State.left] at hleft
  exact ⟨add_ofNat_toNat (by omega), by omega⟩

/-- While a hash is open `DIGEST` is invalid (41_block_tail_final.md R91). -/
theorem StateInv.digest_eq_none (h : StateInv s) (hph : s.ph ≠ .idle) : s.digest = none := by
  cases hd : s.digest with
  | none => rfl
  | some d => exact absurd (h.digestClosed (by rw [hd]; rfl)) hph

theorem Ready.setRes (h : Ready s) (r : Vector Word 4) : Ready (s.setRes r) :=
  ⟨{ h.inv with }, h.noError⟩

theorem Ready.logKeys (h : Ready s) (as : List Nat) : Ready (s.logKeys as) :=
  ⟨{ h.inv with }, h.noError⟩

theorem Ready.openHash (h : Ready s) (hrange : rangeOk s = true) : Ready s.openHash :=
  ⟨{ h.inv with
      stValid := by by_cases hlen : 512 ≤ s.klen.toNat <;> simp [hlen]
      curInKey := Nat.zero_le _
      curVec := by by_cases hlen : 512 ≤ s.klen.toNat <;> simp [hlen]
      curBlk := fun _ => rfl
      curFin := by by_cases hlen : 512 ≤ s.klen.toNat <;> simp [hlen]
      keyRange := ((rangeOk_iff s).mp hrange).2
      lanes := lanesNarrow_zero
      errClosed := fun herr => absurd h.noError herr
      digestClosed := by simp }, h.noError⟩

theorem Ready.putVec (h : Ready s) (hph : s.ph = .vec) (hleft : 128 ≤ s.left) {vs : Vector Word 4}
    (hvs : LanesNarrow vs) : Ready (s.putVec vs) := by
  obtain ⟨hcur, hin⟩ := cur_add_toNat h.inv.curInKey hleft
  obtain ⟨hmod, hlen⟩ := h.inv.curVec hph
  exact ⟨{ h.inv with
    curInKey := hcur.trans_le hin
    curVec := fun _ => ⟨(congrArg (· % 128) hcur).trans (by omega), hlen⟩
    curBlk := by simp [hph]
    curFin := by simp [hph]
    lanes := hvs }, h.noError⟩

theorem Ready.endVec (h : Ready s) (hph : s.ph = .vec) (x : Word) : Ready (s.endVec x) := by
  obtain ⟨hmod, -⟩ := h.inv.curVec hph
  exact ⟨{ h.inv with
    stValid := by simp
    curVec := by simp
    curBlk := fun _ => show s.cur.toNat % 64 = 0 by omega
    curFin := by simp
    errClosed := fun herr => absurd h.noError herr
    digestClosed := by simp [h.inv.digest_eq_none, hph] }, h.noError⟩

theorem Ready.putBlock (h : Ready s) (hph : s.ph = .blk) (hleft : 64 ≤ s.left) (x : Word) :
    Ready (s.putBlock x) := by
  obtain ⟨hcur, hin⟩ := cur_add_toNat h.inv.curInKey hleft
  have hmod := h.inv.curBlk hph
  exact ⟨{ h.inv with
    stValid := by simp [hph]
    curInKey := hcur.trans_le hin
    curVec := by simp [hph]
    curBlk := fun _ => (congrArg (· % 64) hcur).trans (by omega)
    curFin := by simp [hph] }, h.noError⟩

theorem Ready.putTail (h : Ready s) (hph : s.ph = .blk) (x : Word) : Ready (s.putTail x) :=
  ⟨{ h.inv with
      stValid := by simp
      curInKey := le_refl _
      curVec := by simp
      curBlk := by simp
      curFin := fun _ => rfl
      errClosed := fun herr => absurd h.noError herr
      digestClosed := by simp [h.inv.digest_eq_none, hph] }, h.noError⟩

theorem Ready.closeHash (h : Ready s) (d : Word) : Ready (s.closeHash d) :=
  ⟨{ h.inv with
      stValid := by simp
      curVec := by simp
      curBlk := by simp
      curFin := by simp
      errClosed := fun _ => rfl
      digestClosed := fun _ => rfl }, h.noError⟩

theorem Ready.dropDigest512 (h : Ready s) : Ready s.dropDigest512 :=
  ⟨{ h.inv with st512 := rfl }, h.noError⟩

theorem Ready.setDigest512 (h : Ready s) (d : Vector Word 8) : Ready (s.setDigest512 d) :=
  ⟨{ h.inv with st512 := rfl }, h.noError⟩

theorem Ready.seedGen (h : Ready s) : Ready s.seedGen :=
  ⟨{ h.inv with pout := by simp }, h.noError⟩

theorem Ready.stepGen (h : Ready s) (v : Word) : Ready (s.stepGen v) :=
  ⟨{ h.inv with pout := fun _ hv => hv }, h.noError⟩

theorem Ready.seedGen512 (h : Ready s) : Ready s.seedGen512 :=
  ⟨{ h.inv with pout512 := by simp }, h.noError⟩

theorem Ready.stepGen512 (h : Ready s) (v : Vector Word 8) : Ready (s.stepGen512 v) :=
  ⟨{ h.inv with pout512 := fun _ hv => hv, st512 := rfl }, h.noError⟩

/-- Reset leaves the invariant behind whatever stood before, a canonical key space given (10_state.md R33). -/
theorem stateInv_resetBlock (hmem : Memory.wf s.mem = true) : StateInv s.resetBlock where
  memory := hmem
  stValid := by simp
  curInKey := le_refl _
  curVec := by simp
  curBlk := by simp
  curFin := by simp
  keyRange := by simp
  lanes := lanesNarrow_zero
  errClosed := by simp
  errAddr := fun _ => rfl
  errInfo := fun _ => rfl
  digestClosed := by simp
  pout := by simp
  pout512 := by simp
  st512 := rfl

/-- Error entry closes the sequence and keeps the invariant (60_exceptions.md R152). -/
theorem StateInv.raiseError (h : StateInv s) {e : ErrCode} (he : e ≠ .eNone) (v addr : Word) :
    StateInv (raiseError e v addr s) :=
  { h with
    stValid := by simp
    curVec := by simp
    curBlk := by simp
    curFin := by simp
    errClosed := fun _ => rfl
    errAddr := fun hkey => if_neg hkey
    errInfo := fun hnone => absurd hnone he
    digestClosed := fun _ => rfl }

end updates

/-! ### The parts of a command -/

/-- A part of a command keeps the invariant and is never stuck: where it completes no error is recorded, and where it
raises one the state has the invariant for error entry to start from. -/
def Result.Keeps : Result → Prop
  | .done t => Ready t
  | .raise e _ t => e ≠ .eNone ∧ Ready t
  | .stuck _ => False

section operations
variable {s : State}

theorem keeps_andThen {r : Result} {k : State → Result} (hr : r.Keeps) (hk : ∀ t, Ready t → (k t).Keeps) :
    (andThen r k).Keeps := by
  cases r with
  | done t => exact hk t hr
  | raise e a t => exact hr
  | stuck f => exact hr

theorem keeps_performTimes {body : State → Result} (hbody : ∀ t, Ready t → (body t).Keeps) (n : Nat) (h : Ready s) :
    (performTimes body n s).Keeps := by
  induction n generalizing s with
  | zero => exact h
  | succ n ih => exact keeps_andThen (hbody s h) fun _ => ih

theorem keeps_checkRange {k : State → Result} (h : Ready s) (hk : rangeOk s = true → (k s).Keeps) :
    (checkRange k s).Keeps := by
  rcases checkRange_cases k s with ⟨hok, heq⟩ | ⟨-, heq⟩ <;> rw [heq]
  · exact hk hok
  · exact ⟨by decide, h⟩

theorem keeps_checkStage {legal : Bool} {k : State → Result} (h : Ready s) (hk : legal = true → (k s).Keeps) :
    (checkStage legal k s).Keeps := by
  rcases checkStage_cases legal k s with ⟨hok, heq⟩ | ⟨-, heq⟩ <;> rw [heq]
  · exact hk hok
  · exact ⟨by decide, h⟩

theorem keeps_withKey {a n : Nat} {k : List Byte → State → Result} (h : Ready s)
    (hk : ∀ b, (k b (s.logKeys (List.range' a n))).Keeps) : (withKey a n k s).Keeps := by
  rcases withKey_cases a n k s with ⟨b, -, -, heq⟩ | ⟨j, -, -, -, heq⟩ <;> rw [heq]
  · exact hk b
  · exact ⟨by decide, h.logKeys _⟩

/-- 41_block_tail_final.md R101: while a hash is open `ST` is there to read. -/
theorem keeps_withST {k : Word → State → Result} (h : Ready s) (hph : s.ph ≠ .idle) (hk : ∀ x, (k x s).Keeps) :
    (withST k s).Keeps := by
  obtain ⟨x, hst⟩ := Option.isSome_iff_exists.mp (h.inv.stValid.mpr hph)
  rw [withST_valid k hst]
  exact hk x

/-! ### The commands -/

theorem keeps_performHinit (h : Ready s) : (performHinit s).Keeps :=
  keeps_checkRange h fun hrange => h.openHash hrange

theorem keeps_performVmix (h : Ready s) : (performVmix s).Keeps := by
  refine keeps_checkStage h fun hlegal => keeps_withKey h fun b => ?_
  obtain ⟨hph, hleft⟩ : s.ph = .vec ∧ 128 ≤ s.left := by simpa using hlegal
  exact (h.logKeys _).putVec hph hleft (LanesNarrow.vecBlock h.inv.lanes _ _)

theorem keeps_performVred (h : Ready s) : (performVred s).Keeps := by
  refine keeps_checkStage h fun hlegal => ?_
  obtain ⟨hph, -⟩ : s.ph = .vec ∧ s.left < 128 := by simpa using hlegal
  exact keeps_withST h (by simp [hph]) fun x => h.endVec hph _

theorem keeps_performBmix (h : Ready s) : (performBmix s).Keeps := by
  refine keeps_checkStage h fun hlegal => keeps_withKey h fun b => ?_
  obtain ⟨hph, hleft⟩ : s.ph = .blk ∧ 64 ≤ s.left := by simpa using hlegal
  exact keeps_withST (h.logKeys _) (by simp [hph]) fun x => (h.logKeys _).putBlock hph hleft _

theorem keeps_performTmix (h : Ready s) : (performTmix s).Keeps := by
  refine keeps_checkStage h fun hlegal => keeps_withKey h fun b => ?_
  obtain ⟨hph, -⟩ : s.ph = .blk ∧ s.left < 64 := by simpa using hlegal
  exact keeps_withST (h.logKeys _) (by simp [hph]) fun x => (h.logKeys _).putTail hph _

theorem keeps_performHfin (h : Ready s) : (performHfin s).Keeps := by
  refine keeps_checkStage h fun hlegal => ?_
  have hph : s.ph = .fin := by simpa using hlegal
  exact keeps_withST h (by simp [hph]) fun x => h.closeHash _

theorem keeps_performVectorLayer (h : Ready s) : (performVectorLayer s).Keeps := by
  unfold performVectorLayer
  split
  · exact keeps_andThen (keeps_performTimes (fun _ => keeps_performVmix) _ h) fun _ => keeps_performVred
  · exact h

theorem keeps_performBlocks (h : Ready s) : (performBlocks s).Keeps :=
  keeps_performTimes (fun _ => keeps_performBmix) _ h

/-- `HASH64` runs the stage commands' own parts, so it keeps what they keep (43_hash_drivers.md R116). -/
theorem keeps_performHash64 (h : Ready s) : (performHash64 s).Keeps :=
  keeps_andThen (keeps_performHinit h) fun _ h =>
  keeps_andThen (keeps_performVectorLayer h) fun _ h =>
  keeps_andThen (keeps_performBlocks h) fun _ h =>
  keeps_andThen (keeps_performTmix h) fun _ => keeps_performHfin

theorem keeps_performHash512 (h : Ready s) : (performHash512 s).Keeps :=
  keeps_checkRange h fun _ => keeps_withKey h.dropDigest512 fun _ => (h.dropDigest512.logKeys _).setDigest512 _

theorem keeps_performPnext (h : Ready s) : (performPnext s).Keeps := by
  unfold performPnext
  split
  · exact ⟨by decide, h⟩
  · exact h.stepGen _

theorem keeps_performPnext512 (h : Ready s) : (performPnext512 s).Keeps := by
  unfold performPnext512
  split
  · exact ⟨by decide, h⟩
  · exact h.stepGen512 _

/-- Every command keeps the invariant and is never stuck. -/
theorem keeps_commandBody (i : Instr) (h : Ready s) : (commandBody i s).Keeps := by
  cases i with
  | nop => exact h
  | srst => exact ⟨stateInv_resetBlock h.inv.memory, rfl⟩
  | mulw | mumx | muma | mulw128 | mum128x | mum128a | vmum32 | mumc => exact h.setRes _
  | hinit => exact keeps_performHinit h
  | vmix => exact keeps_performVmix h
  | vred => exact keeps_performVred h
  | bmix => exact keeps_performBmix h
  | tmix => exact keeps_performTmix h
  | hfin => exact keeps_performHfin h
  | hash64 | vhash64 => exact keeps_performHash64 h
  | hash512 => exact keeps_performHash512 h
  | pseed => exact h.seedGen
  | pnext => exact keeps_performPnext h
  | pseed512 => exact h.seedGen512
  | pnext512 => exact keeps_performPnext512 h

end operations

/-! ### Steps and runs -/

/-- The step goes on, and the next state has the invariant. -/
def GoesOn (o : Host.Outcome State Fault Refusal) : Prop := ∃ t, o = .next t ∧ StateInv t

section steps
variable {s : State}

theorem exec_goesOn (i : Instr) (h : StateInv s) : GoesOn (exec i s) := by
  by_cases hi : i = .srst
  · subst hi
    exact ⟨_, exec_srst s, stateInv_resetBlock h.memory⟩
  by_cases herr : s.err = .eNone
  · have hbody := keeps_commandBody i ⟨h, herr⟩
    cases hr : commandBody i s with
    | done t =>
      rw [hr] at hbody
      exact ⟨_, exec_done hi herr hr, hbody.inv⟩
    | raise e a t =>
      rw [hr] at hbody
      exact ⟨_, exec_raise hi herr hr, hbody.2.inv.raiseError hbody.1 _ _⟩
    | stuck f =>
      rw [hr] at hbody
      exact hbody.elim
  · exact ⟨_, exec_ignored hi herr, h⟩

theorem StateInv.illegalCommand (h : StateInv s) (v : Word) : StateInv (illegalCommand v s) := by
  unfold Machine.illegalCommand
  split
  · exact h
  · exact h.raiseError (by decide) _ _

theorem StateInv.hostWrite (h : StateInv s) (n : Fin 64) (v : Word) : StateInv (hostWrite n v s) := by
  obtain ⟨_, _, _, _, _, _, heq⟩ := hostWrite_frame n v s
  rw [heq]
  exact { h with }

theorem StateInv.hostRead (h : StateInv s) (n : Fin 64) : StateInv (hostRead n s) := by
  obtain ⟨_, _, heq⟩ := hostRead_frame n s
  rw [heq]
  exact { h with }

theorem StateInv.setKeyByte (h : StateInv s) (a : Word) (b : Option Byte) : StateInv (s.setKeyByte a b) :=
  { h with memory := State.setKeyByte_wf a b h.memory }

/-- Taking a transaction from the port leaves the block alone. -/
theorem StateInv.setInbox (h : StateInv s) (r : List HostEvent) : StateInv { s with inbox := r } :=
  { h with }

/-- From a state with the invariant a step goes on and keeps it, whatever the host's transaction is. -/
theorem step_goesOn (h : StateInv s) : GoesOn (step s) := by
  rcases step_cases s with ⟨-, heq⟩ | ⟨v, r, i, -, -, heq⟩ | ⟨v, r, e, -, -, heq⟩ | ⟨n, v, r, -, -, heq⟩
    | ⟨n, r, -, heq⟩ | ⟨r, -, heq⟩ | ⟨a, b, r, -, heq⟩ <;> rw [heq]
  · exact ⟨_, rfl, h⟩
  · exact exec_goesOn i (h.setInbox r)
  · exact ⟨_, rfl, (h.setInbox r).illegalCommand v⟩
  · exact ⟨_, rfl, (h.setInbox r).hostWrite n v⟩
  · exact ⟨_, rfl, (h.setInbox r).hostRead n⟩
  · exact ⟨_, rfl, stateInv_resetBlock h.memory⟩
  · exact ⟨_, rfl, (h.setInbox r).setKeyByte a b⟩

/-- The invariant carried along a run. -/
theorem run_goesOn (n : Nat) (h : StateInv s) : GoesOn (Host.Core.run Sys2Proof.core n s) := by
  induction n generalizing s with
  | zero => exact ⟨s, run_zero s, h⟩
  | succ n ih =>
    obtain ⟨t, hstep, ht⟩ := step_goesOn h
    rw [run_next hstep]
    exact ih ht

end steps

/-- The state after reset, with any configuration, any canonical key space and any transactions issued. -/
theorem stateInv_resetWith (c : Cfg) {m : Memory} (host : List HostEvent) (hm : Memory.wf m = true) :
    StateInv { State.resetWith c with mem := m, inbox := host } :=
  stateInv_resetBlock (s := { State.resetWith c with mem := m, inbox := host }) hm

end Sys2Proof.Machine

open Sys2Proof Sys2Proof.Machine

/-- Settles O55, by induction on the number of steps; the second clause is the invariant's own on `ST`. -/
theorem everyRunProceeds : Obligations.EveryRunProceeds := by
  refine ⟨fun s n h => run_goesOn n h, fun c m host n hm => ?_⟩
  obtain ⟨t, hrun, ht⟩ := run_goesOn n (stateInv_resetWith c host hm)
  exact ⟨t, hrun, ht.stValid⟩
end

section
/-! PROOF. The vector layer (42_vector_layer.md R106, R107, R110): a vector block lane by lane, the SIMD organisations
against the scalar order, and the reduction of the lanes into `ST`. -/

namespace Sys2Proof.Machine

/-! ### One vector block, lane by lane -/

/-- Sixteen words, each paired with the constant of its own index (42_vector_layer.md R106). -/
theorem zip_vecConsts (c : Cfg) (w : Vector Word 16) :
    w.toList.zip c.c.toList = (List.finRange 16).map fun m => (w[m], c.c[m]) := by
  apply List.ext_getElem
  · simp
  · intro m _ _
    simp

/-- Sixteen terms from index 0 on: lane `l` takes every fourth term, from term `l`. -/
theorem vecTerms_sixteen (vs : Vector Word 4) (p : Fin 16 → Word × Word) (t : Fin 16 → Word)
    (ht : ∀ m, t m = vecTerm (p m).1 (p m).2) :
    vecTerms 0 vs ((List.finRange 16).map p)
      = #v[vs[0] ^^^ t 0 ^^^ t 4 ^^^ t 8 ^^^ t 12, vs[1] ^^^ t 1 ^^^ t 5 ^^^ t 9 ^^^ t 13,
           vs[2] ^^^ t 2 ^^^ t 6 ^^^ t 10 ^^^ t 14, vs[3] ^^^ t 3 ^^^ t 7 ^^^ t 11 ^^^ t 15] := by
  have hlist : (List.finRange 16).map p
      = [p 0, p 1, p 2, p 3, p 4, p 5, p 6, p 7, p 8, p 9, p 10, p 11, p 12, p 13, p 14, p 15] := rfl
  rw [hlist]
  conv_lhs => rw [eq_four vs]
  rw [vecTerms_four 0 rfl, vecTerms_four 4 rfl, vecTerms_four 8 rfl, vecTerms_four 12 rfl]
  simp only [vecTerms, ht]

/-! ### The three organisations of a vector block -/

/-- The four lanes held by the two registers of a 128-bit unit (42_vector_layer.md R107). -/
def pairLanes (p : (Word × Word) × (Word × Word)) : Vector Word 4 := #v[p.1.1, p.1.2, p.2.1, p.2.2]

/-- Two narrow steps are one wide step, whatever the list of terms. -/
theorem pairLanes_vecTerms128 (a b : Word × Word) :
    ∀ terms, pairLanes (vecTerms128 a b terms) = vecTerms256 (pairLanes (a, b)) terms
  | _ :: _ :: _ :: _ :: r => pairLanes_vecTerms128 _ _ r
  | [] | [_] | [_, _] | [_, _, _] => rfl

/-- Whole steps of a 256-bit unit are four scalar steps each, from any index that is a multiple of four. -/
theorem vecTerms256_eq_vecTerms (vs : Vector Word 4) (m : Nat) (hm : m % 4 = 0) :
    ∀ terms : List (Word × Word), terms.length % 4 = 0 → vecTerms256 vs terms = vecTerms m vs terms
  | [], _ => rfl
  | p0 :: p1 :: p2 :: p3 :: r, hlen => by
    have hrest : r.length % 4 = 0 := by
      simp only [List.length_cons] at hlen
      omega
    conv_rhs => rw [eq_four vs, vecTerms_four m hm]
    exact vecTerms256_eq_vecTerms _ (m + 4) (by omega) r hrest

/-! ### The reduction -/

/-- 42_vector_layer.md R110: the four lanes in order, each with its own constant. -/
theorem vecReduce_eq (c : Cfg) (s : Word) (vs : Vector Word 4) :
    vecReduce c s vs = mixTerms c.fold.fVred c.fold.aVred s
      [(vs[0], c.cvr[0]), (vs[1], c.cvr[1]), (vs[2], c.cvr[2]), (vs[3], c.cvr[3])] := by
  rw [vecReduce, toList_four vs, toList_four c.cvr]
  rfl

end Sys2Proof.Machine

open Sys2Proof Sys2Proof.Machine

/-- Settles O37: the sixteen terms taken four at a time, one to each lane; a lane stays narrow because every term is
(`LanesNarrow.vecBlock`). -/
theorem vectorBlockLaneByLane : Obligations.VectorBlockLaneByLane := by
  intro c vs w t ht
  refine ⟨?_, fun hnarrow => LanesNarrow.vecBlock hnarrow c w.toList⟩
  rw [vecBlock, zip_vecConsts]
  exact vecTerms_sixteen vs (fun m => (w[m], c.c[m])) t ht

/-- Settles O38: two narrow steps are one wide step, and a wide step is four scalar ones. -/
theorem vectorWidthsAgree : Obligations.VectorWidthsAgree := by
  intro c vs w hw
  have hwide : vecTerms256 vs (w.zip c.c.toList) = vecBlock c vs w :=
    vecTerms256_eq_vecTerms vs 0 rfl _ (by simp [hw])
  refine ⟨hwide, ?_⟩
  rintro _ rfl
  calc pairLanes (vecTerms128 (vs[0], vs[1]) (vs[2], vs[3]) (w.zip c.c.toList))
      = vecTerms256 #v[vs[0], vs[1], vs[2], vs[3]] (w.zip c.c.toList) := pairLanes_vecTerms128 _ _ _
    _ = vecTerms256 vs (w.zip c.c.toList) := by rw [← eq_four vs]
    _ = vecBlock c vs w := hwide

/-- Settles O28: the body is `State.endVec` of the reduction, whose four terms are the lanes in order. -/
theorem vredReducesVectorState : Obligations.VredReducesVectorState := by
  refine ⟨by decide, ?_⟩
  rintro s x herr hph hleft hst _ m rfl hm
  have hbody : commandBody .vred s = .done (s.endVec (vecReduce s.cfg x s.vs)) := performVred_ok hph hleft hst
  rw [exec_done (by decide) herr hbody, vecReduce_eq, hm 0, hm 1, hm 2, hm 3]
  rfl
end

section
/-! PROOF. `H512` as the rules write it (44_mum512.md R126 to R130): a round and the initialisation view by view, the
blocks as a fold over their numbers, the zero-padded tail, and the limbs as halves of the views. -/

namespace Sys2Proof.Machine

/-! ### View by view -/

/-- 44_mum512.md R126 with the view number as an index; the neighbour of view 3 is view 0. -/
theorem round512_view (f : Fold) (u w k : Vector DWord 4) (q : Fin 4) :
    (round512 f u w k)[q] = u[q] ^^^ mum128 f (u[q] ^^^ w[q]) (u[Fin.ofNat 4 (q.val + 1)] ^^^ k[q]) :=
  match q with
  | 0 | 1 | 2 | 3 => rfl

/-- 44_mum512.md R125: view `q` of eight limbs is limb `2q+1` above limb `2q`. -/
theorem views_view (l : Vector Word 8) (q : Fin 4) :
    (views l)[q] = l[Fin.ofNat 8 (2 * q.val + 1)] ++ l[Fin.ofNat 8 (2 * q.val)] :=
  match q with
  | 0 | 1 | 2 | 3 => rfl

/-- 44_mum512.md R127 with the view number as an index. -/
theorem init512_view (c : Cfg) (len : Word) (seed : Vector Word 8) (q : Fin 4) :
    (init512 c len seed)[q]
      = mum128 c.fold.f512 ((views seed)[q] ^^^ c.k512i[q]) (len.setWidth 128 ^^^ c.k512l[q]) :=
  match q with
  | 0 | 1 | 2 | 3 => rfl

/-- 44_mum512.md R130: limb `2q` is the low half of view `q`. -/
theorem limbs_even (u : Vector DWord 4) (q : Fin 4) : (limbs u)[Fin.ofNat 8 (2 * q.val)] = lo64 u[q] :=
  match q with
  | 0 | 1 | 2 | 3 => rfl

/-- 44_mum512.md R130: limb `2q+1` is the high half of view `q`. -/
theorem limbs_odd (u : Vector DWord 4) (q : Fin 4) : (limbs u)[Fin.ofNat 8 (2 * q.val + 1)] = hi64 u[q] :=
  match q with
  | 0 | 1 | 2 | 3 => rfl

/-! ### The blocks and the tail -/

/-- `W[q]` of a block from its number (44_mum512.md R128). -/
theorem blockWords512_eq_ofFn (bs : List Byte) :
    blockWords512 bs = Vector.ofFn fun q : Fin 4 => leDWord ((bs.drop (16 * q.val)).take 16) := rfl

/-- The four words are read from the first 64 bytes alone. -/
theorem blockWords512_take (bs : List Byte) : blockWords512 (bs.take 64) = blockWords512 bs := by
  simp only [blockWords512, List.drop_take, List.take_take]
  rfl

/-- The full blocks in the order of their numbers: block `b` starts at byte `64b` (44_mum512.md R128). -/
theorem blockLoop512_eq_foldl (c : Cfg) (n : Nat) (u : Vector DWord 4) (bs : List Byte) :
    blockLoop512 c n u bs = (List.range n).foldl
      (fun u b => round512 c.fold.f512 u (blockWords512 (bs.drop (64 * b))) c.k512b) u := by
  induction n generalizing u bs with
  | zero => rfl
  | succ n ih =>
    have hstart (b : Nat) : 64 + 64 * b = 64 * (b + 1) := by omega
    rw [blockLoop512, blockWords512_take, ih, List.range_succ_eq_map, List.foldl_cons, List.foldl_map]
    simp only [List.drop_drop, hstart, Nat.mul_zero, List.drop_zero]

/-- The full blocks leave `len mod 64` bytes (44_mum512.md R128). -/
theorem length_drop_blocks (key : List Byte) : (key.drop (64 * (key.length / 64))).length = key.length % 64 := by
  rw [List.length_drop]
  omega

end Sys2Proof.Machine

open Sys2Proof Sys2Proof.Machine

/-- Settles O60: the first two clauses view by view; for the whole function the named intermediate views are those of
`h512`, since its block loop is a fold over the block numbers. -/
theorem h512RoundByRound : Obligations.H512RoundByRound := by
  refine ⟨round512_view, fun c len seed q => (init512_view c len seed q).trans (by rw [views_view]), ?_⟩
  intro c key seed _ words hwords u v x hu hv hx
  obtain rfl : words = blockWords512 := hwords.trans (funext fun b => (blockWords512_eq_ofFn b).symm)
  rw [← blockLoop512_eq_foldl] at hu
  have hdigest : h512 c key seed = limbs x := by
    simp only [h512, pad512, length_drop_blocks, hx, hv, hu]
    rfl
  rw [hdigest]
  exact fun q => ⟨limbs_even x q, limbs_odd x q⟩
end

section
/-! PROOF. The system command `NOP` and the generators (45_prng_system.md R135 to R142): what seeding and each `next()`
do in one command, the stream of a whole run, and the generators' hash in closed form. -/

namespace Sys2Proof.Machine

/-! ### Single commands -/

/-- 45_prng_system.md R138 with a seeded generator. -/
theorem performPnext_seeded {s : State} {x : Word} (h : s.pstate = some x) :
    performPnext s = .done (s.stepGen (hp s.cfg (x ^^^ s.pctr))) := by
  simp only [performPnext, h]

theorem performPnext_unseeded {s : State} (h : s.pstate = none) : performPnext s = .raise .eUnseeded 0 s := by
  simp only [performPnext, h, raise]

/-- 45_prng_system.md R140 with a seeded generator. -/
theorem performPnext512_seeded {s : State} {x : Vector Word 8} (h : s.pstate512 = some x) :
    performPnext512 s = .done (s.stepGen512 (hp512 s.cfg x s.pctr512)) := by
  simp only [performPnext512, h]

theorem performPnext512_unseeded {s : State} (h : s.pstate512 = none) :
    performPnext512 s = .raise .eUnseeded 0 s := by
  simp only [performPnext512, h, raise]

/-- The key of `PNEXT512` limb by limb: the counter reaches limb 0 only (45_prng_system.md R140). -/
theorem prngKey512_eq (x : Vector Word 8) (ctr : Word) :
    prngKey512 x ctr = leBytes (x[0] ^^^ ctr) ++ leBytes x[1] ++ leBytes x[2] ++ leBytes x[3]
      ++ leBytes x[4] ++ leBytes x[5] ++ leBytes x[6] ++ leBytes x[7] := by
  have hlimbs : (x.set 0 (x[0] ^^^ ctr)).toList = [x[0] ^^^ ctr, x[1], x[2], x[3], x[4], x[5], x[6], x[7]] := by
    rw [toList_eight]
    simp
  rw [prngKey512, hlimbs]
  rfl

/-! ### The stream -/

/-- A legal command's word decodes to that command (30_encoding.md R57): a lookup for each constructor. -/
theorem decode_encode (i : Instr) : decode (encode i) = .ok i := by
  cases i with
  | mumc idx => revert idx; decide
  | nop | srst | mulw | mumx | muma | mulw128 | mum128x | mum128a | vmum32 | hinit | vmix | vred | bmix | tmix | hfin
  | hash64 | vhash64 | hash512 | pseed | pnext | pseed512 | pnext512 => decide

/-- The first of several commands that the host has issued is performed, and the run goes on with the others. -/
theorem run_cmdWrites_cons {s t : State} {i : Instr} {is : List Instr} {rest : List HostEvent} {n : Nat}
    (h : exec i { s with inbox := cmdWrites is ++ rest } = .next t) :
    Host.Core.run Sys2Proof.core (n + 1) { s with inbox := cmdWrites (i :: is) ++ rest }
      = Host.Core.run Sys2Proof.core n t :=
  run_next ((step_command rfl (decode_encode i)).trans h)

/-- The state once the generator, seeded in `s`, has returned `n` values (45_prng_system.md R135): with `n = 0` it is
freshly seeded and `POUT` is invalid. -/
def State.streamed (s : State) (n : Nat) : State :=
  { s with
    pstate := some (generatorState s.cfg s.seed n), pctr := BitVec.ofNat 64 n,
    pout := if n = 0 then none else some (generatorState s.cfg s.seed n) }

theorem exec_pseed_eq_streamed {s : State} (herr : s.err = .eNone) : exec .pseed s = .next (s.streamed 0) := by
  have hbody : commandBody .pseed s = .done (s.streamed 0) := rfl
  exact exec_done (by decide) herr hbody

/-- One `PNEXT` is one term of the recurrence `s_{n+1} = H(s_n ⊕ n)`, and the counter follows `n` modulo `2^64`. -/
theorem exec_pnext_streamed {s : State} (herr : s.err = .eNone) (n : Nat) :
    exec .pnext (s.streamed n) = .next (s.streamed (n + 1)) := by
  have hctr : BitVec.ofNat 64 n + 1 = BitVec.ofNat 64 (n + 1) := (BitVec.ofNat_add n 1).symm
  have hstep : (s.streamed n).stepGen (generatorState s.cfg s.seed (n + 1)) = s.streamed (n + 1) := by
    simp only [State.stepGen, State.streamed, hctr, Nat.succ_ne_zero, if_false]
  have hbody : commandBody .pnext (s.streamed n) = .done (s.streamed (n + 1)) :=
    (performPnext_seeded rfl).trans (congrArg Result.done hstep)
  exact exec_done (by decide) herr hbody

/-- `n` more values, from any point of the stream. -/
theorem run_pnext_times {s : State} (herr : s.err = .eNone) (rest : List HostEvent) (n m : Nat) :
    Host.Core.run Sys2Proof.core n
        { s.streamed m with inbox := cmdWrites (List.replicate n .pnext) ++ rest }
      = .next { s.streamed (m + n) with inbox := rest } := by
  induction n generalizing m with
  | zero => rfl
  | succ n ih =>
    have hfirst := exec_pnext_streamed
      (s := { s with inbox := cmdWrites (List.replicate n .pnext) ++ rest }) herr m
    calc Host.Core.run Sys2Proof.core (n + 1)
          { s.streamed m with inbox := cmdWrites (.pnext :: List.replicate n .pnext) ++ rest }
        = Host.Core.run Sys2Proof.core n
            { s.streamed (m + 1) with inbox := cmdWrites (List.replicate n .pnext) ++ rest } :=
          run_cmdWrites_cons (s := s.streamed m) hfirst
      _ = .next { s.streamed (m + 1 + n) with inbox := rest } := ih (m + 1)
      _ = .next { s.streamed (m + (n + 1)) with inbox := rest } := by rw [Nat.add_right_comm, Nat.add_assoc]

/-! ### Closed forms -/

/-- A key below 64 bytes has neither vector nor block: its bytes are the tail (43_hash_drivers.md R115). -/
theorem h64_of_length_lt (c : Cfg) {key : List Byte} (seed : Word) (h : key.length < 64) :
    h64 c key seed = finalMix c (tailMix c (initState c seed (BitVec.ofNat 64 key.length)) key) := by
  have hgate : ¬ 512 ≤ key.length := by omega
  have hblocks : key.length / 64 = 0 := by omega
  simp only [h64, vecExtent, hgate, if_false, List.drop_zero, hblocks, blockLoop, Nat.mul_zero]

@[simp] theorem length_leBytes (x : Word) : (leBytes x).length = 8 := rfl

theorem leWord_leBytes (x : Word) : leWord (leBytes x) = x := by
  rw [leWord, le_leBytes, BitVec.ofNat_toNat, BitVec.setWidth_eq]

/-- The eight bytes of a word are one full tail group, the word itself, which meets `C[8]`
(45_prng_system.md R136). -/
theorem tailMix_leBytes (c : Cfg) (s x : Word) :
    tailMix c s (leBytes x) = acc c.fold.aTail s (mum c.fold.fTail x c.c[8]) := by
  have hgroup : tailGroup (leBytes x) 0 = x := leWord_leBytes x
  have hgroups : tailGroups (leBytes x) = (List.range 1).map (tailGroup (leBytes x)) := by
    rw [tailGroups_full (by simp), length_leBytes]
  have hconst : c.c.toList.getD 8 0 = c.c[8] := by simp
  rw [tailMix_eq_foldl c s (by decide) hgroups]
  simp only [List.range_one, List.foldl_cons, List.foldl_nil, hgroup, Nat.add_zero, hconst]

/-- A key of 64 bytes is one block with no tail (44_mum512.md R128). -/
theorem h512_of_length_eq (c : Cfg) {key : List Byte} (seed : Vector Word 8) (h : key.length = 64) :
    h512 c key seed = limbs (round512 c.fold.f512
      (round512 c.fold.f512 (init512 c 64 seed) (blockWords512 key) c.k512b) (Vector.replicate 4 0) c.k512f) := by
  have htail : key.drop 64 = [] := List.drop_eq_nil_of_le h.le
  simp [h512, h, htail, blockLoop512, blockWords512_take]

/-- Sixteen bytes of two limbs are the limbs' view (44_mum512.md R125). -/
theorem leDWord_leBytes (lo hi : Word) : leDWord (leBytes lo ++ leBytes hi) = hi ++ lo := by
  calc leDWord (leBytes lo ++ leBytes hi) = leWord (leBytes hi) ++ leWord (leBytes lo) := leDWord_eq_append rfl
    _ = hi ++ lo := by rw [leWord_leBytes, leWord_leBytes]

/-- A block put together from its four 16-byte words (44_mum512.md R128). -/
theorem blockWords512_append {a b c d : List Byte} (ha : a.length = 16) (hb : b.length = 16) (hc : c.length = 16)
    (hd : d.length = 16) :
    blockWords512 (a ++ b ++ c ++ d) = #v[leDWord a, leDWord b, leDWord c, leDWord d] := by
  simp [blockWords512, List.drop_append, List.drop_eq_nil_of_le, List.take_of_length_le, ha, hb, hc, hd]

/-- The words of the one block `PNEXT512` hashes are the views of the state, the counter in limb 0. -/
theorem blockWords512_prngKey512 (x : Vector Word 8) (ctr : Word) :
    blockWords512 (prngKey512 x ctr)
      = #v[x[1] ++ (x[0] ^^^ ctr), x[3] ++ x[2], x[5] ++ x[4], x[7] ++ x[6]] := by
  have hbytes : prngKey512 x ctr
      = (leBytes (x[0] ^^^ ctr) ++ leBytes x[1]) ++ (leBytes x[2] ++ leBytes x[3])
        ++ (leBytes x[4] ++ leBytes x[5]) ++ (leBytes x[6] ++ leBytes x[7]) := by
    simp only [prngKey512_eq, List.append_assoc]
  rw [hbytes, blockWords512_append (by simp) (by simp) (by simp) (by simp)]
  simp only [leDWord_leBytes]

end Sys2Proof.Machine

open Sys2Proof Sys2Proof.Machine

/-- Settles O14: with an error recorded the command is ignored, and without one its body changes nothing. -/
theorem nopChangesNothing : Obligations.NopChangesNothing := by
  refine ⟨by decide, fun s => ?_⟩
  by_cases herr : s.err = .eNone
  · exact exec_done (by decide) herr rfl
  · exact exec_ignored (by decide) herr

/-- Settles O48: the bodies are the two seeding updates, legal in every state. -/
theorem seedingRestartsGenerator : Obligations.SeedingRestartsGenerator := by
  refine ⟨by decide, by decide, fun s herr => ?_⟩
  have hbody : commandBody .pseed s = .done s.seedGen := rfl
  have hbody512 : commandBody .pseed512 s = .done s.seedGen512 := rfl
  exact ⟨exec_done (by decide) herr hbody, exec_done (by decide) herr hbody512⟩

/-- Settles O49, by whether `PSTATE` is valid. -/
theorem pnextOutputsHash : Obligations.PnextOutputsHash := by
  refine ⟨by decide, fun s herr => ⟨?seeded, fun hnone => ?unseeded⟩⟩
  case seeded =>
    rintro x _ hx rfl
    exact exec_done (by decide) herr (performPnext_seeded hx)
  case unseeded => exact exec_raise (by decide) herr (performPnext_unseeded hnone)

/-- Settles O50, by whether `PSTATE512` is valid; the key is the state's limbs byte by byte. -/
theorem pnext512OutputsHash : Obligations.Pnext512OutputsHash := by
  refine ⟨by decide, fun s herr => ⟨?seeded, fun hnone => ?unseeded⟩⟩
  case seeded =>
    rintro x _ hx rfl
    rw [← prngKey512_eq]
    exact exec_done (by decide) herr (performPnext512_seeded hx)
  case unseeded => exact exec_raise (by decide) herr (performPnext512_unseeded hnone)

/-- Settles O51: eight bytes are one tail group, 64 bytes are one block. -/
theorem generatorHashClosedForms : Obligations.GeneratorHashClosedForms := by
  refine ⟨fun c x => ⟨rfl, ?_⟩, ?_⟩
  · rw [hp, h64_of_length_lt c _ (by simp : (leBytes x).length < 64), tailMix_leBytes]
    rfl
  · rintro c x ctr _ rfl
    have hlen : (prngKey512 x ctr).length = 64 := by rw [prngKey512_eq]; rfl
    rw [hp512, h512_of_length_eq c _ hlen, blockWords512_prngKey512]
    rfl

/-- Settles O52: `PSEED` starts the stream, and `k + 1` values follow by induction. -/
theorem generatorStreamFollowsContract : Obligations.GeneratorStreamFollowsContract := by
  intro s rest k herr
  have hseed := exec_pseed_eq_streamed
    (s := { s with inbox := cmdWrites (List.replicate (k + 1) .pnext) ++ rest }) herr
  calc Host.Core.run Sys2Proof.core (k + 1 + 1)
        { s with inbox := cmdWrites (.pseed :: List.replicate (k + 1) .pnext) ++ rest }
      = Host.Core.run Sys2Proof.core (k + 1)
          { s.streamed 0 with inbox := cmdWrites (List.replicate (k + 1) .pnext) ++ rest } := run_cmdWrites_cons hseed
    _ = .next { s.streamed (0 + (k + 1)) with inbox := rest } := run_pnext_times herr rest (k + 1) 0
    _ = _ := by rw [Nat.zero_add]; rfl
end

section
/-! PROOF. The sticky error (60_exceptions.md R153): while one is recorded every command but `SRST` is ignored, and the
host's register accesses commute with a change of `ERR`, which only `STATUS` shows. -/

namespace Sys2Proof.Machine

/-! ### Commands while an error is recorded -/

/-- An illegal value raises nothing over a recorded error (60_exceptions.md R153, R154). -/
theorem illegalCommand_ignored (v : Word) {s : State} (h : s.err ≠ .eNone) : illegalCommand v s = s :=
  if_pos h

/-- A step that takes a write to `CMD` other than `SRST` while an error is recorded takes it from the port and does
nothing else. -/
theorem step_cmd_ignored {s : State} {r : List HostEvent} {v : Word} (herr : s.err ≠ .eNone)
    (hinbox : s.inbox = .write cmdReg v :: r) (hsrst : decode v ≠ .ok .srst) : step s = .next { s with inbox := r } := by
  have herr' : ({ s with inbox := r } : State).err ≠ .eNone := herr
  cases hd : decode v with
  | ok i =>
    have hi : i ≠ .srst := fun heq => hsrst (heq ▸ hd)
    rw [step_command hinbox hd, exec_ignored hi herr']
  | error e => rw [step_illegal hinbox hd, illegalCommand_ignored v herr']

/-! ### Register accesses -/

/-- A step that takes a write to a register other than `CMD` (10_state.md R23). -/
theorem step_write {s : State} {r : List HostEvent} {n : Fin 64} {v : Word} (hn : n ≠ cmdReg)
    (h : s.inbox = .write n v :: r) : step s = .next (hostWrite n v { s with inbox := r }) := by
  simp [step, fetch, h, hn]

/-- A step that takes a read (10_state.md R23). -/
theorem step_read {s : State} {r : List HostEvent} {n : Fin 64} (h : s.inbox = .read n :: r) :
    step s = .next (hostRead n { s with inbox := r }) := by
  simp [step, fetch, h]

/-- `STATUS` is register 2 and no other (10_state.md R22). -/
theorem regOf_ne_status : ∀ n : Fin 64, n ≠ 2 → regOf n ≠ .status := by
  decide

/-- No register but `STATUS` shows `ERR` (10_state.md R25). -/
theorem regValue_setErr (s : State) (e : ErrCode) {r : Reg} (h : r ≠ .status) :
    regValue { s with err := e } r = regValue s r := by
  cases r with
  | status => exact absurd rfl h
  | _ => rfl

/-- A host write neither looks at `ERR` nor changes it. -/
theorem hostWrite_setErr (n : Fin 64) (v : Word) (s : State) (e : ErrCode) :
    hostWrite n v { s with err := e } = { hostWrite n v s with err := e } := by
  unfold hostWrite
  cases regOf n <;> rfl

/-- A host read of a register that does not show `ERR` neither looks at `ERR` nor changes it. -/
theorem hostRead_setErr {n : Fin 64} (hn : n ≠ 2) (s : State) (e : ErrCode) :
    hostRead n { s with err := e } = { hostRead n s with err := e } := by
  unfold hostRead
  rw [regValue_setErr s e (regOf_ne_status n hn)]
  cases regValue s (regOf n) <;> rfl

end Sys2Proof.Machine

open Sys2Proof Sys2Proof.Machine

/-- Settles O11: the frame of the commands ignores all but `SRST`, and a register access leads, with and without the
error, to the same state but for `ERR`. -/
theorem stickyErrorIgnoresCommands : Obligations.StickyErrorIgnoresCommands := by
  refine fun s rest herr => ⟨fun v hinbox => ⟨fun hsrst => ?srst, step_cmd_ignored herr hinbox⟩,
    fun n v hn hinbox => ?write, fun n hn hinbox => ?read⟩
  case srst => rw [step_command hinbox hsrst, exec_srst]
  case write =>
    refine ⟨_, step_write hn hinbox, ?_⟩
    rw [step_write hn hinbox, ← hostWrite_setErr]
  case read =>
    refine ⟨_, step_read hinbox, ?_⟩
    rw [step_read hinbox, ← hostRead_setErr hn]
end

section
/-! PROOF. Decoding inverts encoding (30_encoding.md R56 to R59): a value is put together again from its three fields,
and the decoder's answer fixes all three. -/

namespace Sys2Proof

/-- A value written to `CMD` is its fields, top to bottom (30_encoding.md R56). -/
theorem eq_append_fields (v : Word) : v = (cmdUpper v ++ cmdIdx v) ++ cmdOpc v := by
  have hhigh : cmdUpper v ++ cmdIdx v = v.extractLsb' 8 56 :=
    BitVec.extractLsb'_append_extractLsb'_eq_extractLsb' rfl
  rw [hhigh]
  exact (BitVec.extractLsb'_append_extractLsb' (w := 56) (len := 8)).symm

/-- A row of the opcode table is a command of format F0 under its own opcode: a lookup over the 256 bytes. -/
theorem f0Command_fields : ∀ opc : BitVec 8, ∀ i ∈ f0Command opc, opc = i.opc ∧ i.idxField = 0 := by
  decide

/-- The fields of a value that decodes are those of its command. -/
theorem fields_of_decode {v : Word} {i : Instr} (h : decode v = .ok i) :
    cmdUpper v = 0 ∧ cmdIdx v = i.idxField ∧ cmdOpc v = i.opc := by
  by_cases hupper : cmdUpper v = 0
  case neg =>
    rw [decode_of_upper_ne_zero hupper] at h
    cases h
  refine ⟨hupper, ?_⟩
  by_cases hopc : cmdOpc v = 0x20
  case pos =>
    rw [decode_of_opc_mumc hupper hopc] at h
    cases h
    exact ⟨rfl, hopc⟩
  cases hf0 : f0Command (cmdOpc v) with
  | none =>
    rw [decode_of_f0Command_none hupper hopc hf0] at h
    cases h
  | some j =>
    rw [decode_of_f0Command_some hupper hopc hf0] at h
    obtain ⟨hjopc, hjidx⟩ := f0Command_fields _ j hf0
    by_cases hidx : cmdIdx v = 0
    · rw [if_neg (not_not.mpr hidx)] at h
      cases h
      exact ⟨hidx.trans hjidx.symm, hjopc⟩
    · rw [if_pos hidx] at h
      cases h

theorem eq_encode_of_decode {v : Word} {i : Instr} (h : decode v = .ok i) : v = encode i := by
  obtain ⟨hupper, hidx, hopc⟩ := fields_of_decode h
  rw [eq_append_fields v, hupper, hidx, hopc]
  rfl

/-- Decoding and encoding agree in both directions. -/
theorem decode_eq_ok_iff (v : Word) (i : Instr) : decode v = .ok i ↔ v = encode i :=
  ⟨eq_encode_of_decode, fun h => h ▸ Machine.decode_encode i⟩

end Sys2Proof

open Sys2Proof Sys2Proof.Machine

/-- Settles O1. -/
theorem decodeInvertsEncode : Obligations.DecodeInvertsEncode :=
  fun i v => decode_eq_ok_iff v i

/-- Settles O3: the legal words are the encodings of their commands, and each other word fails one of the tests
(a), (b), (c) of R59. -/
theorem writtenWordsDecode : Obligations.WrittenWordsDecode := by
  have legal {v : Word} {i : Instr} (h : v = encode i) : decode v = .ok i := (decode_eq_ok_iff v i).mpr h
  refine ⟨legal (by decide), legal (by decide), legal (by decide), legal (by decide), legal (by decide),
    legal (by decide), ?gap, ?index, ?upper⟩
  case gap => exact decode_of_f0Command_none (by decide) (by decide) (by decide)
  case index =>
    rw [decode_of_f0Command_some (i := .mulw) (by decide) (by decide) (by decide)]
    exact if_pos (by decide)
  case upper => exact decode_of_upper_ne_zero (by decide)
end

section
/-! PROOF. The invariant kept by one step and met after reset: the step lemma `step_goesOn` behind every run. -/

open Sys2Proof Sys2Proof.Machine

/-- Settles O53: a step from a state with the invariant goes on to one state, and that state has it. -/
theorem stepKeepsInvariant : Obligations.StepKeepsInvariant := by
  intro s t hs hstep
  obtain ⟨u, hnext, hu⟩ := step_goesOn hs
  have htu : t = u := Host.Outcome.next.inj (hstep.symm.trans hnext)
  exact htu ▸ hu

/-- Settles O54: the reset state has no valid key address, which is a canonical key space. -/
theorem resetHasInvariant : Obligations.ResetHasInvariant := by
  have hreset (c : Cfg) : StateInv (State.resetWith c) := stateInv_resetWith c [] (m := []) rfl
  exact ⟨hreset, hreset Config.tp0⟩
end

section
/-! PROOF. The key space under the environment's changes (20_memory.md R42, 70_reset_and_hazards.md R177), and its
canonical form (log entry 3). -/

namespace Sys2Proof.Machine

/-- A step that takes the environment's change of one key address. -/
theorem step_setKey {s : State} {r : List HostEvent} {a : Word} {b : Option Byte} (h : s.inbox = .setKey a b :: r) :
    step s = .next (State.setKeyByte { s with inbox := r } a b) := by
  simp [step, fetch, h]

/-- The head of a key space reads as its own byte. -/
theorem Memory.read_cons_self (x : Nat) (b : Byte) (m : Memory) : Memory.read ((x, b) :: m) x = some b :=
  if_pos rfl

theorem Memory.read_cons_of_ne {x a : Nat} (h : a ≠ x) (b : Byte) (m : Memory) :
    Memory.read ((x, b) :: m) a = Memory.read m a :=
  if_neg h

/-- In a rising list no address below the head is valid. -/
theorem Memory.head_le_of_read {x a : Nat} {b : Byte} {m : Memory} (hrising : Memory.rising ((x, b) :: m) = true)
    (hread : (Memory.read ((x, b) :: m) a).isSome = true) : x ≤ a := by
  obtain ⟨hx, -⟩ := (Memory.rising_cons x b m).mp hrising
  by_contra hlt
  have hbelow : ∀ p ∈ (x, b) :: m, a < p.1 := by
    intro p hp
    rcases List.mem_cons.mp hp with rfl | hp
    · exact Nat.lt_of_not_le hlt
    · exact (Nat.lt_of_not_le hlt).trans (hx p hp)
  simp [Memory.read_below hbelow] at hread

/-- A rising list reads like no other: both heads are the lowest valid address, and below the heads both tails read
as nothing. -/
theorem Memory.eq_of_read_eq {m n : Memory} (hm : Memory.rising m = true) (hn : Memory.rising n = true)
    (hread : ∀ a, Memory.read m a = Memory.read n a) : m = n := by
  induction m generalizing n with
  | nil =>
    cases n with
    | nil => rfl
    | cons q n => simpa [Memory.read] using hread q.1
  | cons p m ih =>
    cases n with
    | nil => simpa [Memory.read] using hread p.1
    | cons q n =>
      obtain ⟨x, b⟩ := p
      obtain ⟨y, c⟩ := q
      have hyx : y ≤ x := Memory.head_le_of_read hn (by rw [← hread x, Memory.read_cons_self]; rfl)
      have hxy : x ≤ y := Memory.head_le_of_read hm (by rw [hread y, Memory.read_cons_self]; rfl)
      obtain rfl : x = y := le_antisymm hxy hyx
      obtain rfl : b = c := by simpa [Memory.read_cons_self] using hread x
      obtain ⟨hbelowm, hm⟩ := (Memory.rising_cons x b m).mp hm
      obtain ⟨hbelown, hn⟩ := (Memory.rising_cons x b n).mp hn
      refine congrArg _ (ih hm hn fun a => ?_)
      by_cases ha : a = x
      · rw [ha, Memory.read_below hbelowm, Memory.read_below hbelown]
      · simpa [Memory.read_cons_of_ne ha] using hread a

end Sys2Proof.Machine

open Sys2Proof Sys2Proof.Machine

/-- Settles O12: the step is `State.setKeyByte`, and `Memory.read_set` says what every read then finds. -/
theorem keyChangeIsLocal : Obligations.KeyChangeIsLocal := by
  intro s rest a b hinbox hwf
  obtain ⟨hrising, -⟩ := (Memory.wf_iff s.mem).mp hwf
  exact ⟨_, step_setKey hinbox, fun x => Memory.read_set a.toNat x b hrising⟩

/-- Settles O13, by induction on the one list against the other. -/
theorem equalReadingKeySpacesAreEqual : Obligations.EqualReadingKeySpacesAreEqual := by
  intro m n hm hn hread
  obtain ⟨hrisingm, -⟩ := (Memory.wf_iff m).mp hm
  obtain ⟨hrisingn, -⟩ := (Memory.wf_iff n).mp hn
  exact Memory.eq_of_read_eq hrisingm hrisingn hread
end

section
/-! PROOF. The laws of the folds and accumulations (40_primitives.md R89). -/

namespace Sys2Proof.Machine

/-! ### What each computes from the exact product -/

theorem mumx_toNat (x y : Word) :
    (mumx x y).toNat = (x.toNat * y.toNat / 2 ^ 64) ^^^ (x.toNat * y.toNat % 2 ^ 64) := by
  rw [mumx, BitVec.toNat_xor, hi64_toNat, lo64_toNat, mulw64_toNat]

/-! ### Commutation -/

theorem mulw64_comm (x y : Word) : mulw64 x y = mulw64 y x := by
  rw [mulw64, mulw64, Nat.mul_comm]

theorem mulw128_comm (x y : DWord) : mulw128 x y = mulw128 y x := by
  rw [mulw128, mulw128, Nat.mul_comm]

theorem mum_comm (f : Fold) (x y : Word) : mum f x y = mum f y x := by
  cases f with
  | xor => rw [mum, mum, mumx, mumx, mulw64_comm]
  | add => rw [mum, mum, muma, muma, mulw64_comm]

theorem mum128_comm (f : Fold) (x y : DWord) : mum128 f x y = mum128 f y x := by
  cases f with
  | xor => rw [mum128, mum128, mum128x, mum128x, mulw128_comm]
  | add => rw [mum128, mum128, mum128a, mum128a, mulw128_comm]

theorem mum32_comm (a b : Word) : mum32 a b = mum32 b a := by
  rw [mum32, mum32, Nat.mul_comm]

/-! ### Operands with a known product -/

/-- Where the high half of the product is 0 both folds answer the low half. -/
theorem mum_of_hi64_eq_zero {x y : Word} (h : hi64 (mulw64 x y) = 0) (f : Fold) :
    mum f x y = lo64 (mulw64 x y) := by
  cases f with
  | xor => simp [mum, mumx, h]
  | add => simp [mum, muma, h]

/-- A product below `2^64` is its own fold. -/
theorem mum_of_mul_lt {x y : Word} (h : x.toNat * y.toNat < 2 ^ 64) (f : Fold) :
    mum f x y = BitVec.ofNat 64 (x.toNat * y.toNat) := by
  have hhigh : hi64 (mulw64 x y) = 0 := by
    rw [hi64_eq_ofNat, mulw64_toNat, Nat.div_eq_of_lt h]
    rfl
  rw [mum_of_hi64_eq_zero hhigh, lo64_eq_ofNat, mulw64_toNat, Nat.mod_eq_of_lt h]

@[simp] theorem mum_zero_left (f : Fold) (y : Word) : mum f 0 y = 0 := by
  rw [mum_of_mul_lt (by simp)]
  simp

theorem mum_one_left (f : Fold) (y : Word) : mum f 1 y = y := by
  have hproduct : (1 : Word).toNat * y.toNat = y.toNat := by simp
  rw [mum_of_mul_lt (by rw [hproduct]; exact y.isLt), hproduct, BitVec.ofNat_toNat, BitVec.setWidth_eq]

theorem mum128_zero_left (f : Fold) (y : DWord) : mum128 f 0 y = 0 := by
  have hproduct : mulw128 0 y = 0 := by simp [mulw128]
  cases f with
  | xor => rw [mum128, mum128x, hproduct]; rfl
  | add => rw [mum128, mum128a, hproduct]; rfl

/-- A lane with a low half 0 answers 0 (40_primitives.md R80). -/
theorem mum32_eq_zero {a b : Word} (h : lo32 a = 0 ∨ lo32 b = 0) : mum32 a b = 0 := by
  have hproduct : (lo32 a).toNat * (lo32 b).toNat = 0 := by
    rcases h with h | h <;> simp [h]
  rw [mum32, hproduct]
  rfl

/-- `(2^64 − 1)·y = (y − 1)·2^64 + (2^64 − y)`: the halves of the product are complements. -/
theorem lo64_mulw64_allOnes {y : Word} (hy : y ≠ 0) :
    lo64 (mulw64 (BitVec.allOnes 64) y) = ~~~ hi64 (mulw64 (BitVec.allOnes 64) y) := by
  have hpos : y.toNat ≠ 0 := fun h => hy (BitVec.eq_of_toNat_eq h)
  have hlt := y.isLt
  apply BitVec.eq_of_toNat_eq
  rw [BitVec.toNat_not, hi64_toNat, lo64_toNat, mulw64_toNat, BitVec.toNat_allOnes]
  omega

theorem xor_complement {n : Nat} (x : BitVec n) : x ^^^ ~~~x = BitVec.allOnes n := by
  rw [← BitVec.xor_allOnes, ← BitVec.xor_assoc, BitVec.xor_self, BitVec.zero_xor]

/-- 40_primitives.md R89 (h): all ones absorb every operand but 0. -/
theorem mum_allOnes (f : Fold) {y : Word} (hy : y ≠ 0) : mum f (BitVec.allOnes 64) y = BitVec.allOnes 64 := by
  cases f with
  | xor => rw [mum, mumx, lo64_mulw64_allOnes hy, xor_complement]
  | add => rw [mum, muma, lo64_mulw64_allOnes hy, BitVec.add_not_self]

/-! ### Where the folds differ -/

/-- No carry reaches a bit below which the operands share no one bit. -/
theorem carry_eq_false {a b : Word} {i : Nat} (h : ∀ k < i, ¬ (a.getLsbD k = true ∧ b.getLsbD k = true)) :
    BitVec.carry i a b false = false := by
  induction i with
  | zero => exact BitVec.carry_zero
  | succ i ih =>
    rw [BitVec.carry_succ, ih fun k hk => h k (by omega), Bool.atLeastTwo_false_right, Bool.and_eq_false_iff]
    simpa [or_iff_not_imp_left] using h i (by omega)

/-- A shared one bit carries into the next bit. -/
theorem carry_succ_of_shared {a b : Word} {k : Nat} (ha : a.getLsbD k = true) (hb : b.getLsbD k = true) :
    BitVec.carry (k + 1) a b false = true := by
  rw [BitVec.carry_succ, ha, hb, Bool.atLeastTwo_true_left, Bool.true_or]

/-- 40_primitives.md R89 (f), corrected (log entry 23): a sum is its xor but for the carries, and the carry out of bit
63 is lost. -/
theorem xor_ne_add_iff (a b : Word) :
    a ^^^ b ≠ a + b ↔ ∃ k, k < 63 ∧ a.getLsbD k = true ∧ b.getLsbD k = true := by
  constructor
  · intro hne
    by_contra hnone
    refine hne (BitVec.eq_of_getLsbD_eq fun i hi => ?_)
    have hcarry : BitVec.carry i a b false = false :=
      carry_eq_false fun k hk hshared => hnone ⟨k, by omega, hshared⟩
    rw [BitVec.getLsbD_add hi, hcarry, BitVec.getLsbD_xor, Bool.xor_false]
  · rintro ⟨k, hk, ha, hb⟩ heq
    have hbit : (a ^^^ b).getLsbD (k + 1) = (a + b).getLsbD (k + 1) := by rw [heq]
    rw [BitVec.getLsbD_add (by omega), carry_succ_of_shared ha hb, BitVec.getLsbD_xor] at hbit
    simp at hbit

end Sys2Proof.Machine

open Sys2Proof Sys2Proof.Machine

/-- Settles O24: each clause is a law of the fold's definition from the exact product. -/
theorem multiplyFoldLaws : Obligations.MultiplyFoldLaws := by
  refine ⟨fun _ _ => rfl, fun s m => BitVec.toNat_add s m, ?fold64, fun _ _ => ⟨rfl, rfl⟩, ?fold128, ?fold32,
    mum_comm, mum128_comm, mum32_comm, mum_zero_left, mum128_zero_left, fun _ _ => mum32_eq_zero, mum_one_left,
    fun f => mum_allOnes f (by decide), ?shifted, ?doubled, mum_one_left .xor 1⟩
  case fold64 =>
    rintro x y _ rfl
    exact ⟨mumx_toNat x y, muma_toNat x y⟩
  case fold128 =>
    rintro x y _ rfl
    exact ⟨mum128x_toNat x y, mum128a_toNat x y⟩
  case fold32 =>
    rintro a b _ rfl
    exact mum32_toNat a b
  case shifted => decide
  case doubled => decide

/-- Settles O25: the sum of the halves against their xor; the two halves `2^63` of the named operands; and the
complementary halves of a product with all ones. -/
theorem foldsDifferAndAllOnesAbsorbs : Obligations.FoldsDifferAndAllOnesAbsorbs := by
  refine ⟨fun x y => xor_ne_add_iff _ _, ?_, fun f y hy => mum_allOnes f hy⟩
  rintro _ _ rfl rfl
  decide
end

section
/-! PROOF. The stage commands that read the key (41_block_tail_final.md R94, R97, 42_vector_layer.md R109): what each
does where its bytes are valid, the fault where one is not, and the error where its precondition is false. -/

namespace Sys2Proof.Machine

/-! ### Preconditions that are false (41_block_tail_final.md R100) -/

section illegal
variable {s : State}

theorem performVmix_illegal (h : ¬ (s.ph = .vec ∧ 128 ≤ s.left)) : performVmix s = .raise .eSeq 0 s :=
  checkStage_illegal _ _ (by simpa using h)

theorem performVred_illegal (h : ¬ (s.ph = .vec ∧ s.left < 128)) : performVred s = .raise .eSeq 0 s :=
  checkStage_illegal _ _ (by simpa using h)

theorem performBmix_illegal (h : ¬ (s.ph = .blk ∧ 64 ≤ s.left)) : performBmix s = .raise .eSeq 0 s :=
  checkStage_illegal _ _ (by simpa using h)

theorem performTmix_illegal (h : ¬ (s.ph = .blk ∧ s.left < 64)) : performTmix s = .raise .eSeq 0 s :=
  checkStage_illegal _ _ (by simpa using h)

theorem performHfin_illegal (h : s.ph ≠ .fin) : performHfin s = .raise .eSeq 0 s :=
  checkStage_illegal _ _ (by simpa using h)

/-- A key out of range stops a command before its first effect (20_memory.md R47). -/
theorem checkRange_illegal (k : State → Result)
    (h : s.klen.toNat > s.cfg.lmax.toNat ∨ s.kbase.toNat + s.klen.toNat > 2 ^ 64) :
    checkRange k s = .raise .eRange 0 s := by
  rcases checkRange_cases k s with ⟨hok, -⟩ | ⟨-, heq⟩
  · obtain ⟨hlen, hend⟩ := (rangeOk_iff s).mp hok
    omega
  · exact heq

end illegal

/-! ### Errors recorded by a command whose state is otherwise as it was -/

section recorded
variable {s : State} {i : Instr}

theorem exec_raise_eSeq (hi : i ≠ .srst) (herr : s.err = .eNone) (h : commandBody i s = .raise .eSeq 0 s) :
    exec i s = .next { s with err := .eSeq, errinfo := encode i, erraddr := 0, st := none, ph := .idle } :=
  exec_raise hi herr h

theorem exec_raise_eRange (hi : i ≠ .srst) (herr : s.err = .eNone) (h : commandBody i s = .raise .eRange 0 s) :
    exec i s = .next { s with err := .eRange, errinfo := encode i, erraddr := 0, st := none, ph := .idle } :=
  exec_raise hi herr h

/-- A stage command's key fault: the reads before it are recorded, and `ERRADDR` is the address
(60_exceptions.md R152). -/
theorem exec_raise_keyFault (hi : i ≠ .srst) (herr : s.err = .eNone) {k : Nat}
    (h : commandBody i s
      = .raise .eKeyFault (BitVec.ofNat 64 (s.nextKey + k)) (s.logKeys (List.range' s.nextKey k))) :
    exec i s = .next { s with
      err := .eKeyFault, errinfo := encode i, erraddr := BitVec.ofNat 64 (s.nextKey + k), st := none, ph := .idle,
      keyReads := s.keyReads ++ List.range' s.nextKey k } :=
  exec_raise hi herr h

end recorded

end Sys2Proof.Machine

open Sys2Proof Sys2Proof.Machine

/-- Settles O27: the body is `State.putVec` of the next sixteen words. -/
theorem vmixConsumesVectorBlock : Obligations.VmixConsumesVectorBlock := by
  refine ⟨by decide, fun s b herr hph hleft hlen hkey => ?_⟩
  exact exec_done (i := .vmix) (by decide) herr (performVmix_ok hph hleft hlen hkey)

/-- Settles O29: the body is `State.putBlock` of the next eight words. -/
theorem bmixConsumesBlock : Obligations.BmixConsumesBlock := by
  refine ⟨by decide, fun s x b herr hph hleft hst hlen hkey => ?_⟩
  exact exec_done (i := .bmix) (by decide) herr (performBmix_ok hph hleft hst hlen hkey)

/-- Settles O30: the body is `State.putTail` of the bytes left. -/
theorem tmixConsumesTail : Obligations.TmixConsumesTail := by
  refine ⟨by decide, fun s x t herr hph hleft hst hlen hkey => ?_⟩
  rw [hlen]
  exact exec_done (i := .tmix) (by decide) herr (performTmix_ok hph hleft hst hlen hkey)

/-- Settles O33, command by command: each reads from `LBASE + CUR` on and stops at the first invalid address. -/
theorem stageKeyFaultRecorded : Obligations.StageKeyFaultRecorded := by
  rintro s i n k herr (⟨rfl, hph, hleft, rfl⟩ | ⟨rfl, hph, hleft, rfl⟩ | ⟨rfl, hph, hleft, rfl⟩) hk hfault
  · exact exec_raise_keyFault (i := .vmix) (by decide) herr (performVmix_faults hph hleft hk hfault)
  · exact exec_raise_keyFault (i := .bmix) (by decide) herr (performBmix_faults hph hleft hk hfault)
  · exact exec_raise_keyFault (i := .tmix) (by decide) herr (performTmix_faults hph hleft hk hfault)

/-- Settles O32, command by command: the stage check raises and nothing ran before it. -/
theorem outOfOrderStageRaisesSeq : Obligations.OutOfOrderStageRaisesSeq := by
  rintro s i herr (⟨rfl, h⟩ | ⟨rfl, h⟩ | ⟨rfl, h⟩ | ⟨rfl, h⟩ | ⟨rfl, h⟩)
  · exact exec_raise_eSeq (i := .vmix) (by decide) herr (performVmix_illegal h)
  · exact exec_raise_eSeq (i := .vred) (by decide) herr (performVred_illegal h)
  · exact exec_raise_eSeq (i := .bmix) (by decide) herr (performBmix_illegal h)
  · exact exec_raise_eSeq (i := .tmix) (by decide) herr (performTmix_illegal h)
  · exact exec_raise_eSeq (i := .hfin) (by decide) herr (performHfin_illegal h)

/-- Settles O34: the range check is the first part of all four commands. -/
theorem badRangeRaisesRange : Obligations.BadRangeRaisesRange := by
  intro s i herr hi hbad
  have hhinit : performHinit s = .raise .eRange 0 s := checkRange_illegal _ hbad
  have hhash64 : performHash64 s = .raise .eRange 0 s := by rw [performHash64, hhinit, andThen_raise]
  have hhash512 : performHash512 s = .raise .eRange 0 s := checkRange_illegal _ hbad
  simp only [List.mem_cons, List.not_mem_nil, or_false] at hi
  rcases hi with rfl | rfl | rfl | rfl
  · exact exec_raise_eRange (i := .hinit) (by decide) herr hhinit
  · exact exec_raise_eRange (i := .hash64) (by decide) herr hhash64
  · exact exec_raise_eRange (i := .vhash64) (by decide) herr hhash64
  · exact exec_raise_eRange (i := .hash512) (by decide) herr hhash512
end

section
/-! PROOF. The 512-bit hash command (44_mum512.md R131): one read of the whole key, and its fault. -/

namespace Sys2Proof.Machine

section hash512
variable {s : State}

theorem performHash512_ok {key : List Byte} (hrange : rangeOk s = true) (hlen : key.length = s.klen.toNat)
    (hkey : KeyHolds s.mem s.kbase.toNat key) :
    performHash512 s = .done ((s.dropDigest512.logKeys (List.range' s.kbase.toNat s.klen.toNat)).setDigest512
      (h512 s.cfg key s.seed512)) := by
  rw [performHash512, checkRange, if_pos hrange, withKey_valid _ s.dropDigest512 hlen hkey]
  rfl

theorem performHash512_faults {k : Nat} (hrange : rangeOk s = true) (hk : k < s.klen.toNat)
    (hfault : FirstInvalid s.mem s.kbase.toNat k) :
    performHash512 s = .raise .eKeyFault (BitVec.ofNat 64 (s.kbase.toNat + k))
      (s.dropDigest512.logKeys (List.range' s.kbase.toNat k)) := by
  rw [performHash512, checkRange, if_pos hrange, withKey_faults _ s.dropDigest512 hk hfault]

end hash512

end Sys2Proof.Machine

open Sys2Proof Sys2Proof.Machine

/-- Settles O46: the digest first invalid, then the key read whole and `H512` of it written. -/
theorem hash512ComputesH512 : Obligations.Hash512ComputesH512 := by
  refine ⟨by decide, fun s key herr hmax hend hlen hkey => ?_⟩
  have hbody := performHash512_ok ((rangeOk_iff s).mpr ⟨hmax, hend⟩) hlen hkey
  exact exec_done (i := .hash512) (by decide) herr hbody

/-- Settles O47: the digest is invalid before the read that faults. -/
theorem hash512KeyFaultRecorded : Obligations.Hash512KeyFaultRecorded := by
  intro s k herr hmax hend hk hfault
  have hbody := performHash512_faults ((rangeOk_iff s).mpr ⟨hmax, hend⟩) hk hfault
  exact exec_raise (i := .hash512) (by decide) herr hbody
end

section
/-! PROOF. What the mixers do with terms in another order, with terms that are 0 and with terms that come twice
(41_block_tail_final.md R93, R94, R97, R102; 42_vector_layer.md R113). -/

namespace Sys2Proof.Machine

/-! ### The shared accumulation -/

/-- 41_block_tail_final.md R93: the terms of one mixer commute. -/
theorem mixTerms_perm (f a : Fold) (s : Word) {p q : List (Word × Word)} (h : p.Perm q) :
    mixTerms f a s p = mixTerms f a s q :=
  h.foldl_eq' (fun _ _ _ _ _ => acc_right_comm a _ _ _) s

/-- Zero words contribute nothing, whatever the profile. -/
theorem mixTerms_zip_zero (f a : Fold) (s : Word) {w k : List Word} (hw : ∀ x ∈ w, x = 0) :
    mixTerms f a s (w.zip k) = s := by
  induction w generalizing k with
  | nil => rfl
  | cons x w ih =>
    cases k with
    | nil => rfl
    | cons c k =>
      obtain ⟨rfl, hrest⟩ := List.forall_mem_cons.mp hw
      have hfirst : acc a s (mum f 0 c) = s := by rw [mum_zero_left, acc_zero]
      rw [List.zip_cons_cons, mixTerms, List.foldl_cons, hfirst]
      exact ih hrest

/-- With xor the terms are one value, xored into the state. -/
theorem mixTerms_xor (f : Fold) (s : Word) (terms : List (Word × Word)) :
    mixTerms f .xor s terms = s ^^^ mixTerms f .xor 0 terms := by
  induction terms generalizing s with
  | nil => simp [mixTerms]
  | cons t terms ih =>
    have hfirst (x : Word) : mixTerms f .xor x (t :: terms) = mixTerms f .xor (x ^^^ mum f t.1 t.2) terms := rfl
    rw [hfirst, hfirst, ih (s ^^^ _), ih (0 ^^^ _), BitVec.xor_assoc]
    simp

/-- With xor the same terms twice leave nothing behind. -/
theorem mixTerms_xor_twice (f : Fold) (s : Word) (terms : List (Word × Word)) :
    mixTerms f .xor (mixTerms f .xor s terms) terms = s := by
  rw [mixTerms_xor f (mixTerms f .xor s terms), mixTerms_xor f s, BitVec.xor_assoc, BitVec.xor_self]
  simp

/-- With xor, eight terms that are all ones leave nothing behind. -/
theorem mixTerms_xor_allOnes (f : Fold) (s : Word) {terms : List (Word × Word)} (hlen : terms.length = 8)
    (hterms : ∀ t ∈ terms, mum f t.1 t.2 = BitVec.allOnes 64) : mixTerms f .xor s terms = s := by
  have hones : terms.map (fun t => mum f t.1 t.2) = List.replicate 8 (BitVec.allOnes 64) :=
    List.eq_replicate_iff.mpr ⟨by simp [hlen], List.forall_mem_map.mpr hterms⟩
  have hfold : mixTerms f .xor s terms = (terms.map fun t => mum f t.1 t.2).foldl (acc .xor) s := by
    rw [mixTerms, List.foldl_map]
  rw [hfold, hones]
  simp [List.replicate, acc]

/-! ### Blocks and tails -/

theorem leWord_eq_zero {b : List Byte} (h : ∀ x ∈ b, x = 0) : leWord b = 0 := by
  have hle : le b = 0 := by
    induction b with
    | nil => rfl
    | cons x b ih =>
      obtain ⟨rfl, hb⟩ := List.forall_mem_cons.mp h
      simp [le, ih hb]
  rw [leWord, hle]
  rfl

/-- Every word formed from zero bytes is 0. -/
theorem leWords_eq_zero {n : Nat} {b : List Byte} (h : ∀ x ∈ b, x = 0) : ∀ w ∈ leWords n b, w = 0 := by
  rw [leWords_eq_map]
  simp only [List.mem_map]
  rintro _ ⟨i, -, rfl⟩
  exact leWord_eq_zero fun x hx => h x (List.mem_of_mem_drop (List.mem_of_mem_take hx))

theorem tailGroups_eq_zero {t : List Byte} (h : ∀ x ∈ t, x = 0) : ∀ w ∈ tailGroups t, w = 0 := by
  intro w hw
  rcases List.mem_append.mp hw with hfull | hpartial
  · exact leWords_eq_zero h w hfull
  · split at hpartial
    · rw [List.mem_singleton.mp hpartial]
      exact leWord_eq_zero fun x hx => h x (List.mem_of_mem_drop hx)
    · cases hpartial

/-- A block of bytes `ff` is eight words of all ones. -/
theorem leWords_ff : leWords 8 (List.replicate 64 0xff) = List.replicate 8 (BitVec.allOnes 64) := by
  decide

/-- The constant of a block term is one of the table's. -/
theorem mem_blockConsts {c : Cfg} {k : Word} (h : k ∈ blockConsts c) : ∃ j : Fin 16, c.c[j] = k := by
  obtain ⟨j, hj, heq⟩ := List.mem_iff_getElem.mp (List.mem_of_mem_take h)
  exact ⟨⟨j, by simpa using hj⟩, heq⟩

theorem blockMix_ff {c : Cfg} (s : Word) (ha : c.fold.aBlk = .xor) (hc : ∀ j : Fin 16, c.c[j] ≠ 0) :
    blockMix c s (leWords 8 (List.replicate 64 0xff)) = s := by
  rw [blockMix, ha, leWords_ff]
  refine mixTerms_xor_allOnes _ s (by simp [blockConsts]) fun t ht => ?_
  obtain ⟨hword, hconst⟩ := List.of_mem_zip ht
  obtain ⟨j, hj⟩ := mem_blockConsts hconst
  rw [List.eq_of_mem_replicate hword]
  exact mum_allOnes _ (hj ▸ hc j)

/-- Two blocks may be mixed in either order (41_block_tail_final.md R102 (a)). -/
theorem blockMix_comm (c : Cfg) (s : Word) (w v : List Word) :
    blockMix c (blockMix c s w) v = blockMix c (blockMix c s v) w := by
  simp only [blockMix, ← mixTerms_append]
  exact mixTerms_perm _ _ s List.perm_append_comm

/-! ### Vector blocks -/

/-- Terms are xored into lanes in any order. -/
theorem xorLane_comm (vs : Vector Word 4) (i j : Fin 4) (x y : Word) :
    xorLane (xorLane vs i x) j y = xorLane (xorLane vs j y) i x := by
  by_cases hij : i = j
  · subst hij
    simp [xorLane, BitVec.xor_assoc, BitVec.xor_comm x y]
  · have hval : i.val ≠ j.val := fun h => hij (Fin.ext h)
    simp [xorLane, hval, hval.symm, Vector.set_comm _ _ hval]

theorem xorLane_twice (vs : Vector Word 4) (i : Fin 4) (x : Word) : xorLane (xorLane vs i x) i x = vs := by
  simp [xorLane]

/-- A term xored in before the others may be xored in after them. -/
theorem vecTerms_xorLane (m : Nat) (vs : Vector Word 4) (i : Fin 4) (x : Word) (terms : List (Word × Word)) :
    vecTerms m (xorLane vs i x) terms = xorLane (vecTerms m vs terms) i x := by
  induction terms generalizing m vs with
  | nil => rfl
  | cons t terms ih => rw [vecTerms, xorLane_comm, ih, vecTerms]

/-- The same terms twice cancel lane by lane (42_vector_layer.md R113). -/
theorem vecTerms_twice (m : Nat) (vs : Vector Word 4) (terms : List (Word × Word)) :
    vecTerms m (vecTerms m vs terms) terms = vs := by
  induction terms generalizing m vs with
  | nil => rfl
  | cons t terms ih =>
    calc vecTerms m (vecTerms m vs (t :: terms)) (t :: terms)
        = vecTerms (m + 1) (xorLane (vecTerms (m + 1) (xorLane vs (Fin.ofNat 4 m) (vecTerm t.1 t.2)) terms)
            (Fin.ofNat 4 m) (vecTerm t.1 t.2)) terms := rfl
      _ = vs := by rw [← vecTerms_xorLane, xorLane_twice, ih]

end Sys2Proof.Machine

open Sys2Proof Sys2Proof.Machine

/-- Settles O39. -/
theorem mixTermsCommute : Obligations.MixTermsCommute :=
  fun f a s _ _ h => mixTerms_perm f a s h

/-- Settles O40: zero bytes are zero words, bytes `ff` are words of all ones, and xored terms cancel. -/
theorem neutralAndCancellingBlocks : Obligations.NeutralAndCancellingBlocks := by
  have zeros (n : Nat) : ∀ x ∈ List.replicate n (0 : Byte), x = 0 := fun _ => List.eq_of_mem_replicate
  refine ⟨fun c s => ?zeroBlock, fun c s n => ?zeroTail, fun c s => blockMix_ff s, fun c s w ha => ?twice⟩
  case zeroBlock => exact mixTerms_zip_zero _ _ s (leWords_eq_zero (zeros 64))
  case zeroTail => exact mixTerms_zip_zero _ _ s (tailGroups_eq_zero (zeros n))
  case twice =>
    simp only [blockMix, ha]
    exact mixTerms_xor_twice _ s _

/-- Settles O41: the terms cancel lane by lane, and four zero lanes are four zero words. -/
theorem vectorPairsCancel : Obligations.VectorPairsCancel := by
  refine ⟨fun c vs w => vecTerms_twice 0 vs _, fun c s => ?_⟩
  have hzero : ∀ x ∈ List.replicate 4 (0 : Word), x = 0 := fun _ => List.eq_of_mem_replicate
  exact mixTerms_zip_zero _ _ s hzero
end

section
/-! PROOF. Exchanging two blocks of a key below the vector gate (41_block_tail_final.md R102 (a)): the key's blocks are
taken in three parts, of which the middle one commutes. -/

namespace Sys2Proof.Machine

/-- The blocks of a key whose front is `n` whole blocks: first those of the front, then those of the rest. -/
theorem blockLoop_append (c : Cfg) (n m : Nat) (s : Word) {a : List Byte} (b : List Byte) (ha : a.length = 64 * n) :
    blockLoop c (n + m) s (a ++ b) = blockLoop c m (blockLoop c n s a) b := by
  induction n generalizing s a with
  | zero =>
    obtain rfl : a = [] := List.length_eq_zero_iff.mp ha
    rw [Nat.zero_add]
    rfl
  | succ n ih =>
    have htake : (a ++ b).take 64 = a.take 64 := List.take_append_of_le_length (by omega)
    have hdrop : (a ++ b).drop 64 = a.drop 64 ++ b := List.drop_append_of_le_length (by omega)
    rw [Nat.succ_add, blockLoop, blockLoop, htake, hdrop]
    exact ih _ (by rw [List.length_drop]; omega)

/-- Two neighbouring blocks may be exchanged. -/
theorem blockLoop_exchange (c : Cfg) (s : Word) {x y : List Byte} (hx : x.length = 64) (hy : y.length = 64) :
    blockLoop c 2 s (x ++ y) = blockLoop c 2 s (y ++ x) := by
  have hone (z : List Byte) (hz : z.length = 64) (t : Word) : blockLoop c 1 t z = blockMix c t (leWords 8 z) := by
    rw [blockLoop, List.take_of_length_le hz.le]
    rfl
  rw [blockLoop_append c 1 1 s y hx, blockLoop_append c 1 1 s x hy]
  simp only [hone _ hx, hone _ hy]
  exact blockMix_comm c s _ _

/-- Below the vector gate the digest depends on the front blocks only through the state they lead to
(43_hash_drivers.md R115). -/
theorem h64_of_front (c : Cfg) (seed : Word) {n : Nat} {front : List Byte} (rest : List Byte)
    (hfront : front.length = 64 * n) (hgate : (front ++ rest).length < 512) :
    h64 c (front ++ rest) seed
      = finalMix c (tailMix c
          (blockLoop c (rest.length / 64)
            (blockLoop c n (initState c seed (BitVec.ofNat 64 (front ++ rest).length)) front) rest)
          (rest.drop (64 * (rest.length / 64)))) := by
  have hlen : (front ++ rest).length / 64 = n + rest.length / 64 := by
    rw [List.length_append, hfront]
    omega
  have hskip : 64 * (n + rest.length / 64) = front.length + 64 * (rest.length / 64) := by omega
  have hdrop : (front ++ rest).drop (64 * (n + rest.length / 64)) = rest.drop (64 * (rest.length / 64)) := by
    rw [hskip, List.drop_length_add_append]
  simp only [h64, vecExtent, if_neg (Nat.not_le.mpr hgate), List.drop_zero, hlen, hdrop,
    blockLoop_append c n _ _ rest hfront]

end Sys2Proof.Machine

open Sys2Proof Sys2Proof.Machine

/-- Settles O42: the two keys differ in their front blocks, which lead to the same state. -/
theorem blockOrderIrrelevant : Obligations.BlockOrderIrrelevant := by
  intro c seed pre x y post hpre hx hy hlen
  obtain ⟨n, hn⟩ := Nat.dvd_of_mod_eq_zero hpre
  have hfront {a b : List Byte} (ha : a.length = 64) (hb : b.length = 64) :
      (pre ++ a ++ b).length = 64 * (n + 2) := by
    rw [List.length_append, List.length_append]
    omega
  have hblocks (s : Word) : blockLoop c (n + 2) s (pre ++ x ++ y) = blockLoop c (n + 2) s (pre ++ y ++ x) := by
    rw [List.append_assoc, List.append_assoc, blockLoop_append c n 2 s _ hn, blockLoop_append c n 2 s _ hn,
      blockLoop_exchange c _ hx hy]
  have hsame : (pre ++ x ++ y ++ post).length = (pre ++ y ++ x ++ post).length := by
    simp only [List.length_append, hx, hy]
  rw [h64_of_front c seed post (hfront hx hy) hlen, h64_of_front c seed post (hfront hy hx) (hsame ▸ hlen), hsame,
    hblocks]
end

section
/-! PROOF. Whole 64-bit hashes (43_hash_drivers.md R115 to R118): the states that a hash over a key passes through, one
lemma for each stage, chained inside one command by `performHash64` and over several commands by the host. -/

namespace Sys2Proof.Machine

/-! ### Repetition -/

/-- A part performed `n` times walks along a sequence of states. -/
theorem performTimes_walk {body : State → Result} (f : Nat → State) {n : Nat}
    (h : ∀ j < n, body (f j) = .done (f (j + 1))) : performTimes body n (f 0) = .done (f n) := by
  induction n generalizing f with
  | zero => rfl
  | succ n ih =>
    rw [performTimes_succ, h 0 (Nat.succ_pos n), andThen_done]
    exact ih (fun j => f (j + 1)) fun j hj => h (j + 1) (Nat.succ_lt_succ hj)

/-- A part performed `n` times stops where it raises. -/
theorem performTimes_raise {body : State → Result} (f : Nat → State) {n j : Nat} {e : ErrCode} {a : Word} {u : State}
    (hj : j < n) (hwalk : ∀ i < j, body (f i) = .done (f (i + 1))) (hraise : body (f j) = .raise e a u) :
    performTimes body n (f 0) = .raise e a u := by
  induction j generalizing f n with
  | zero =>
    obtain ⟨n, rfl⟩ := Nat.exists_eq_succ_of_ne_zero hj.ne'
    rw [performTimes_succ, hraise, andThen_raise]
  | succ j ih =>
    obtain ⟨n, rfl⟩ := Nat.exists_eq_succ_of_ne_zero (Nat.ne_zero_of_lt hj)
    rw [performTimes_succ, hwalk 0 (Nat.succ_pos j), andThen_done]
    exact ih (fun i => f (i + 1)) (Nat.lt_of_succ_lt_succ hj) (fun i hi => hwalk (i + 1) (Nat.succ_lt_succ hi)) hraise

/-- The vector blocks of a key with the last one taken apart. -/
theorem vecLoop_succ (c : Cfg) (n : Nat) (vs : Vector Word 4) (b : List Byte) :
    vecLoop c (n + 1) vs b = vecBlock c (vecLoop c n vs b) (leWords 16 ((b.drop (128 * n)).take 128)) := by
  induction n generalizing vs b with
  | zero => rfl
  | succ n ih =>
    rw [vecLoop, ih, List.drop_drop, Nat.mul_succ, Nat.add_comm 128]
    rfl

/-- The blocks of a key with the last one taken apart. -/
theorem blockLoop_succ (c : Cfg) (n : Nat) (s : Word) (b : List Byte) :
    blockLoop c (n + 1) s b = blockMix c (blockLoop c n s b) (leWords 8 ((b.drop (64 * n)).take 64)) := by
  induction n generalizing s b with
  | zero => rfl
  | succ n ih =>
    rw [blockLoop, ih, List.drop_drop, Nat.mul_succ, Nat.add_comm 64]
    rfl

/-! ### The states of a hash -/

/-- A hash over `KBASE`, `KLEN` opened in `s`, with `n` bytes of the key consumed. -/
def State.hashing (s : State) (ph : Phase) (st : Word) (vs : Vector Word 4) (n : Nat) : State :=
  { s with
    lbase := s.kbase, llen := s.klen, cur := BitVec.ofNat 64 n, vs := vs, st := some st, ph := ph, digest := none,
    keyReads := s.keyReads ++ List.range' s.kbase.toNat n }

/-- The bytes of `key` are the first bytes of a legal key named by `KBASE` and `KLEN`. -/
structure KeyFront (s : State) (key : List Byte) : Prop where
  /-- 20_memory.md R47 -/
  range : rangeOk s = true
  /-- `key` may stop before the key's end, at a byte that is not valid -/
  short : key.length ≤ s.klen.toNat
  /-- the bytes are valid -/
  holds : KeyHolds s.mem s.kbase.toNat key

section hashing
variable {s : State} {ph : Phase} {x : Word} {vs : Vector Word 4} {n : Nat} {key : List Byte}

theorem ofNat_toNat_of_le_klen (h : n ≤ s.klen.toNat) : (BitVec.ofNat 64 n).toNat = n := by
  rw [BitVec.toNat_ofNat, Nat.mod_eq_of_lt (h.trans_lt s.klen.isLt)]

theorem hashing_left (h : n ≤ s.klen.toNat) : (s.hashing ph x vs n).left = s.klen.toNat - n := by
  rw [State.left]
  exact congrArg (s.klen.toNat - ·) (ofNat_toNat_of_le_klen h)

theorem hashing_nextKey (h : n ≤ s.klen.toNat) : (s.hashing ph x vs n).nextKey = s.kbase.toNat + n := by
  rw [State.nextKey]
  exact congrArg (s.kbase.toNat + ·) (ofNat_toNat_of_le_klen h)

/-- The reads of the next bytes of the key continue the reads before them (20_memory.md R45). -/
theorem keyReads_continue (reads : List Nat) (base m n : Nat) :
    reads ++ List.range' base m ++ List.range' (base + m) n = reads ++ List.range' base (m + n) := by
  rw [List.append_assoc, List.range'_append_1]

theorem performHinit_hashing (hrange : rangeOk s = true) :
    performHinit s = .done (s.hashing (if 512 ≤ s.klen.toNat then .vec else .blk) (initState s.cfg s.seed s.klen)
      (Vector.replicate 4 0) 0) := by
  rw [performHinit_ok hrange, State.hashing, List.range'_zero, List.append_nil]
  rfl

/-- The part of a key front that the next read of a stage command finds. -/
theorem KeyFront.next (h : KeyFront s key) (hn : n ≤ s.klen.toNat) (len : Nat) :
    KeyHolds (s.hashing ph x vs n).mem (s.hashing ph x vs n).nextKey ((key.drop n).take len) := by
  rw [hashing_nextKey hn]
  exact h.holds.drop_take n len

theorem performVmix_hashing (h : KeyFront s key) (hn : n + 128 ≤ key.length) :
    performVmix (s.hashing .vec x vs n)
      = .done (s.hashing .vec x (vecBlock s.cfg vs (leWords 16 ((key.drop n).take 128))) (n + 128)) := by
  have hnk : n ≤ s.klen.toNat := by have := h.short; omega
  have hleft : 128 ≤ (s.hashing .vec x vs n).left := by
    rw [hashing_left hnk]
    have := h.short
    omega
  have hlen : ((key.drop n).take 128).length = 128 := by simp; omega
  rw [performVmix_ok rfl hleft hlen (h.next hnk 128), hashing_nextKey hnk]
  simp only [State.putVec, State.logKeys, State.hashing, keyReads_continue]
  rw [show (128 : Word) = BitVec.ofNat 64 128 from rfl, ← BitVec.ofNat_add]

theorem performVred_hashing (hn : n ≤ s.klen.toNat) (hleft : s.klen.toNat - n < 128) :
    performVred (s.hashing .vec x vs n) = .done (s.hashing .blk (vecReduce s.cfg x vs) vs n) :=
  performVred_ok rfl (by rwa [hashing_left hn]) rfl

theorem performBmix_hashing (h : KeyFront s key) (hn : n + 64 ≤ key.length) :
    performBmix (s.hashing .blk x vs n)
      = .done (s.hashing .blk (blockMix s.cfg x (leWords 8 ((key.drop n).take 64))) vs (n + 64)) := by
  have hnk : n ≤ s.klen.toNat := by have := h.short; omega
  have hleft : 64 ≤ (s.hashing .blk x vs n).left := by
    rw [hashing_left hnk]
    have := h.short
    omega
  have hlen : ((key.drop n).take 64).length = 64 := by simp; omega
  rw [performBmix_ok rfl hleft rfl hlen (h.next hnk 64), hashing_nextKey hnk]
  simp only [State.putBlock, State.logKeys, State.hashing, keyReads_continue]
  rw [show (64 : Word) = BitVec.ofNat 64 64 from rfl, ← BitVec.ofNat_add]

theorem performTmix_hashing (h : KeyFront s key) (hlen : key.length = s.klen.toNat) (hn : n ≤ s.klen.toNat)
    (hleft : s.klen.toNat - n < 64) :
    performTmix (s.hashing .blk x vs n)
      = .done (s.hashing .fin (tailMix s.cfg x (key.drop n)) vs s.klen.toNat) := by
  have hl := hashing_left (ph := .blk) (x := x) (vs := vs) hn
  have hdrop : (key.drop n).length = (s.hashing .blk x vs n).left := by rw [List.length_drop, hl, hlen]
  have hkey : KeyHolds (s.hashing .blk x vs n).mem (s.hashing .blk x vs n).nextKey (key.drop n) := by
    rw [hashing_nextKey hn]
    exact h.holds.drop n
  rw [performTmix_ok rfl (by rwa [hl]) rfl hdrop hkey, hashing_nextKey hn, hl]
  simp only [State.putTail, State.logKeys, State.hashing, keyReads_continue, Nat.add_sub_cancel' hn,
    BitVec.ofNat_toNat, BitVec.setWidth_eq]

theorem performHfin_hashing :
    performHfin (s.hashing .fin x vs n) = .done ((s.hashing .fin x vs n).closeHash (finalMix s.cfg x)) :=
  performHfin_ok rfl rfl

end hashing

/-! ### The stages of one whole hash -/

section stages
variable (s : State) (key : List Byte)

/-- The vector state once the vector layer has taken what it takes of a key of `KLEN` bytes (42_vector_layer.md
R105). -/
def State.vecDone : Vector Word 4 := vecLoop s.cfg (vecExtent s.klen.toNat / 128) (Vector.replicate 4 0) key

/-- `ST` before the first block: `INIT`, reduced with the vector state at the gate and above it. -/
def State.stDone : Word :=
  if 512 ≤ s.klen.toNat then vecReduce s.cfg (initState s.cfg s.seed s.klen) (s.vecDone key)
  else initState s.cfg s.seed s.klen

/-- After `j` vector blocks. -/
def State.vecStage (j : Nat) : State :=
  s.hashing .vec (initState s.cfg s.seed s.klen) (vecLoop s.cfg j (Vector.replicate 4 0) key) (128 * j)

/-- After the vector layer and `j` blocks. -/
def State.blockStage (j : Nat) : State :=
  s.hashing .blk (blockLoop s.cfg j (s.stDone key) (key.drop (vecExtent s.klen.toNat))) (s.vecDone key)
    (vecExtent s.klen.toNat + 64 * j)

/-- How many blocks the vector layer leaves (43_hash_drivers.md R116). -/
def State.blockCount : Nat := (s.klen.toNat - vecExtent s.klen.toNat) / 64

/-- After `HINIT`: the vector layer at the gate and above it, else the blocks. -/
def State.opened : State := if 512 ≤ s.klen.toNat then s.vecStage key 0 else s.blockStage key 0

/-- After `TMIX`. -/
def State.tailStage : State :=
  s.hashing .fin
    (tailMix s.cfg (blockLoop s.cfg s.blockCount (s.stDone key) (key.drop (vecExtent s.klen.toNat)))
      (key.drop (vecExtent s.klen.toNat + 64 * s.blockCount)))
    (s.vecDone key) s.klen.toNat

/-- After a whole hash of the key (43_hash_drivers.md R115, R116). -/
def State.hashed : State :=
  { s with
    lbase := s.kbase, llen := s.klen, cur := s.klen, vs := vecState s.cfg key, st := none, ph := .idle,
    digest := some (h64 s.cfg key s.seed),
    keyReads := s.keyReads ++ List.range' s.kbase.toNat s.klen.toNat }

variable {s key}

theorem vecExtent_of_gate {len : Nat} (h : 512 ≤ len) : vecExtent len = 128 * (len / 128) := if_pos h

theorem vecExtent_of_not_gate {len : Nat} (h : ¬ 512 ≤ len) : vecExtent len = 0 := if_neg h

theorem vecExtent_le (len : Nat) : vecExtent len ≤ len := by
  unfold vecExtent
  split <;> omega

theorem performHinit_opened (hrange : rangeOk s = true) : performHinit s = .done (s.opened key) := by
  rw [performHinit_hashing hrange]
  by_cases hgate : 512 ≤ s.klen.toNat
  · simp only [State.opened, if_pos hgate]
    rfl
  · simp only [State.opened, State.blockStage, State.stDone, State.vecDone, if_neg hgate, vecExtent_of_not_gate hgate]
    rfl

theorem performVmix_vecStage (h : KeyFront s key) {j : Nat} (hj : 128 * (j + 1) ≤ key.length) :
    performVmix (s.vecStage key j) = .done (s.vecStage key (j + 1)) := by
  rw [State.vecStage, performVmix_hashing h (by omega), State.vecStage, vecLoop_succ, Nat.mul_succ]

theorem performVred_vecStage (hgate : 512 ≤ s.klen.toNat) :
    performVred (s.vecStage key (s.klen.toNat / 128)) = .done (s.blockStage key 0) := by
  have hdone : vecLoop s.cfg (s.klen.toNat / 128) (Vector.replicate 4 0) key = s.vecDone key := by
    rw [State.vecDone, vecExtent_of_gate hgate, Nat.mul_div_cancel_left _ (by decide)]
  rw [State.vecStage, performVred_hashing (by omega) (by omega), hdone]
  simp only [State.blockStage, State.stDone, if_pos hgate, vecExtent_of_gate hgate]
  rfl

/-- The count that the vector loop of `HASH64` fixes at its start (log entry 25). -/
theorem performVectorLayer_vecStage :
    performVectorLayer (s.vecStage key 0)
      = andThen (performTimes performVmix (s.klen.toNat / 128) (s.vecStage key 0)) performVred := by
  have hph : (s.vecStage key 0).ph = .vec := rfl
  have hleft : (s.vecStage key 0).left = s.klen.toNat := by
    rw [State.vecStage, hashing_left (Nat.zero_le _), Nat.sub_zero]
  rw [performVectorLayer, if_pos hph, hleft]

theorem performVectorLayer_opened (h : KeyFront s key) (hlen : vecExtent s.klen.toNat ≤ key.length) :
    performVectorLayer (s.opened key) = .done (s.blockStage key 0) := by
  by_cases hgate : 512 ≤ s.klen.toNat
  · rw [vecExtent_of_gate hgate] at hlen
    have hloop : performTimes performVmix (s.klen.toNat / 128) (s.vecStage key 0)
        = .done (s.vecStage key (s.klen.toNat / 128)) :=
      performTimes_walk (s.vecStage key) fun j hj => performVmix_vecStage h (by omega)
    rw [State.opened, if_pos hgate, performVectorLayer_vecStage, hloop, andThen_done, performVred_vecStage hgate]
  · rw [State.opened, if_neg hgate]
    rfl

theorem performBmix_blockStage (h : KeyFront s key) {j : Nat}
    (hj : vecExtent s.klen.toNat + 64 * (j + 1) ≤ key.length) :
    performBmix (s.blockStage key j) = .done (s.blockStage key (j + 1)) := by
  rw [State.blockStage, performBmix_hashing h (by omega), State.blockStage, blockLoop_succ, Nat.mul_succ,
    List.drop_drop]
  rfl

/-- The count that the block loop of `HASH64` fixes at its start (log entry 25). -/
theorem blockStage_left : (s.blockStage key 0).left / 64 = s.blockCount := by
  rw [State.blockStage, Nat.mul_zero, Nat.add_zero, hashing_left (vecExtent_le _)]
  rfl

theorem blockCount_fits : vecExtent s.klen.toNat + 64 * s.blockCount ≤ s.klen.toNat
    ∧ s.klen.toNat - (vecExtent s.klen.toNat + 64 * s.blockCount) < 64 := by
  have := vecExtent_le s.klen.toNat
  unfold State.blockCount
  omega

theorem performBlocks_blockStage (h : KeyFront s key)
    (hlen : vecExtent s.klen.toNat + 64 * s.blockCount ≤ key.length) :
    performBlocks (s.blockStage key 0) = .done (s.blockStage key s.blockCount) := by
  rw [performBlocks, blockStage_left]
  exact performTimes_walk (s.blockStage key) fun j hj => performBmix_blockStage h (by omega)

theorem performTmix_blockStage (h : KeyFront s key) (hlen : key.length = s.klen.toNat) :
    performTmix (s.blockStage key s.blockCount) = .done (s.tailStage key) := by
  obtain ⟨hfits, hleft⟩ := blockCount_fits (s := s)
  exact performTmix_hashing h hlen hfits hleft

/-- The stages put together are `H64` (43_hash_drivers.md R115). -/
theorem performHfin_tailStage (hlen : key.length = s.klen.toNat) :
    performHfin (s.tailStage key) = .done (s.hashed key) := by
  have hdigest : h64 s.cfg key s.seed
      = finalMix s.cfg (tailMix s.cfg
          (blockLoop s.cfg s.blockCount (s.stDone key) (key.drop (vecExtent s.klen.toNat)))
          (key.drop (vecExtent s.klen.toNat + 64 * s.blockCount))) := by
    simp only [h64, hlen, List.length_drop, List.drop_drop, State.blockCount, State.stDone, State.vecDone, vecState,
      BitVec.ofNat_toNat, BitVec.setWidth_eq]
  rw [State.tailStage, performHfin_hashing, ← hdigest]
  simp only [State.closeHash, State.hashing, State.hashed, State.vecDone, vecState, hlen, BitVec.ofNat_toNat,
    BitVec.setWidth_eq]

/-- 43_hash_drivers.md R116: one command runs the stages one after another. -/
theorem performHash64_hashed (h : KeyFront s key) (hlen : key.length = s.klen.toNat) :
    performHash64 s = .done (s.hashed key) := by
  obtain ⟨hfits, -⟩ := blockCount_fits (s := s)
  rw [performHash64, performHinit_opened h.range, andThen_done,
    performVectorLayer_opened h (hlen ▸ vecExtent_le _), andThen_done,
    performBlocks_blockStage h (hlen ▸ hfits), andThen_done, performTmix_blockStage h hlen, andThen_done,
    performHfin_tailStage hlen]

theorem exec_hash64_hashed (h : KeyFront s key) (hlen : key.length = s.klen.toNat) (herr : s.err = .eNone) :
    exec .hash64 s = .next (s.hashed key) :=
  exec_done (i := .hash64) (by decide) herr (performHash64_hashed h hlen)

end stages

/-! ### The stages as commands of the host -/

/-- Runs follow one another. -/
theorem run_add {s t : State} {m n : Nat} (h : Host.Core.run Sys2Proof.core m s = .next t) :
    Host.Core.run Sys2Proof.core (m + n) s = Host.Core.run Sys2Proof.core n t := by
  induction m generalizing s with
  | zero =>
    obtain rfl : s = t := Host.Outcome.next.inj h
    rw [Nat.zero_add]
  | succ m ih =>
    cases hstep : step s with
    | next u =>
      rw [run_next hstep] at h
      rw [Nat.succ_add, run_next hstep]
      exact ih h
    | fault r =>
      have hcore : Sys2Proof.core.step s = .fault r := hstep
      simp only [Host.Core.run, hcore] at h
      cases h
    | refused r =>
      have hcore : Sys2Proof.core.step s = .refused r := hstep
      simp only [Host.Core.run, hcore] at h
      cases h

/-- The host issues the commands one by one, and they lead from `s` to `t`, whatever it has issued after them. -/
def Runs (is : List Instr) (s t : State) : Prop :=
  ∀ rest : List HostEvent,
    Host.Core.run Sys2Proof.core is.length { s with inbox := cmdWrites is ++ rest } = .next { t with inbox := rest }

theorem runs_single {i : Instr} {s t : State}
    (h : ∀ rest : List HostEvent, exec i { s with inbox := rest } = .next { t with inbox := rest }) :
    Runs [i] s t :=
  fun rest => run_cmdWrites_cons (is := []) (n := 0) (h rest)

theorem Runs.append {is js : List Instr} {s t u : State} (h : Runs is s t) (h' : Runs js t u) :
    Runs (is ++ js) s u := by
  intro rest
  have hinbox : cmdWrites (is ++ js) ++ rest = cmdWrites is ++ (cmdWrites js ++ rest) := by
    simp [cmdWrites]
  rw [hinbox, List.length_append, run_add (h _)]
  exact h' rest

/-- One command, repeated, walks along a sequence of states. -/
theorem runs_replicate {i : Instr} (f : Nat → State) {n : Nat} (h : ∀ j < n, Runs [i] (f j) (f (j + 1))) :
    Runs (List.replicate n i) (f 0) (f n) := by
  induction n generalizing f with
  | zero => exact fun _ => rfl
  | succ n ih =>
    exact (h 0 (Nat.succ_pos n)).append
      (ih (fun j => f (j + 1)) fun j hj => h (j + 1) (Nat.succ_lt_succ hj))

section sequence
variable {s : State} {key : List Byte}

/-- A key front does not depend on what the host has issued. -/
theorem KeyFront.setInbox (h : KeyFront s key) (r : List HostEvent) : KeyFront { s with inbox := r } key :=
  ⟨h.range, h.short, h.holds⟩

theorem runs_hinit (herr : s.err = .eNone) (hrange : rangeOk s = true) : Runs [.hinit] s (s.opened key) := by
  refine runs_single fun r => ?_
  have hopened : ({ s with inbox := r } : State).opened key = { s.opened key with inbox := r } := by
    unfold State.opened
    split <;> rfl
  rw [← hopened]
  exact exec_done (i := .hinit) (by decide) herr (performHinit_opened (s := { s with inbox := r }) hrange)

theorem runs_vmix (h : KeyFront s key) (herr : s.err = .eNone) {j : Nat} (hj : 128 * (j + 1) ≤ key.length) :
    Runs [.vmix] (s.vecStage key j) (s.vecStage key (j + 1)) :=
  runs_single fun r =>
    exec_done (i := .vmix) (by decide) herr (performVmix_vecStage (s := { s with inbox := r }) (h.setInbox r) hj)

theorem runs_vred (herr : s.err = .eNone) (hgate : 512 ≤ s.klen.toNat) :
    Runs [.vred] (s.vecStage key (s.klen.toNat / 128)) (s.blockStage key 0) :=
  runs_single fun r =>
    exec_done (i := .vred) (by decide) herr (performVred_vecStage (s := { s with inbox := r }) hgate)

theorem runs_bmix (h : KeyFront s key) (herr : s.err = .eNone) {j : Nat}
    (hj : vecExtent s.klen.toNat + 64 * (j + 1) ≤ key.length) :
    Runs [.bmix] (s.blockStage key j) (s.blockStage key (j + 1)) :=
  runs_single fun r =>
    exec_done (i := .bmix) (by decide) herr (performBmix_blockStage (s := { s with inbox := r }) (h.setInbox r) hj)

theorem runs_tmix (h : KeyFront s key) (herr : s.err = .eNone) (hlen : key.length = s.klen.toNat) :
    Runs [.tmix] (s.blockStage key s.blockCount) (s.tailStage key) :=
  runs_single fun r =>
    exec_done (i := .tmix) (by decide) herr (performTmix_blockStage (s := { s with inbox := r }) (h.setInbox r) hlen)

theorem runs_hfin (herr : s.err = .eNone) (hlen : key.length = s.klen.toNat) :
    Runs [.hfin] (s.tailStage key) (s.hashed key) :=
  runs_single fun r =>
    exec_done (i := .hfin) (by decide) herr (performHfin_tailStage (s := { s with inbox := r }) hlen)

/-- The vector part of `hash64.s`, empty below the gate (30_encoding.md R62). -/
theorem runs_vectorLayer (h : KeyFront s key) (herr : s.err = .eNone) (hlen : key.length = s.klen.toNat) :
    Runs (if 512 ≤ s.klen.toNat then List.replicate (s.klen.toNat / 128) .vmix ++ [.vred] else [])
      (s.opened key) (s.blockStage key 0) := by
  unfold State.opened
  by_cases hgate : 512 ≤ s.klen.toNat
  · rw [if_pos hgate, if_pos hgate]
    exact (runs_replicate (s.vecStage key) fun j hj => runs_vmix h herr (by omega)).append (runs_vred herr hgate)
  · rw [if_neg hgate, if_neg hgate]
    exact fun _ => rfl

/-- 30_encoding.md R62: the commands of `hash64.s` run the same stages. -/
theorem runs_stageSequence (h : KeyFront s key) (herr : s.err = .eNone) (hlen : key.length = s.klen.toNat) :
    Runs (stageSequence s.klen.toNat) s (s.hashed key) := by
  obtain ⟨hfits, -⟩ := blockCount_fits (s := s)
  have hblocks : Runs (List.replicate s.blockCount .bmix) (s.blockStage key 0) (s.blockStage key s.blockCount) :=
    runs_replicate (s.blockStage key) fun j hj => runs_bmix h herr (by omega)
  exact (((runs_hinit herr h.range).append (runs_vectorLayer h herr hlen)).append hblocks).append
    ((runs_tmix h herr hlen).append (runs_hfin herr hlen))

end sequence

/-! ### A key that is not valid to its end -/

/-- The key of a legal range has its first invalid address at offset `k` (20_memory.md R42). -/
structure KeyFault (s : State) (k : Nat) : Prop where
  range : rangeOk s = true
  inside : k < s.klen.toNat
  stops : FirstInvalid s.mem s.kbase.toNat k

/-- A part of a hash raises the key fault at offset `k`, the key latched and the reads before the fault recorded; what
it leaves in `ST`, `PH`, `VS` and `CUR` is open (93_implementation_defined.md U7). -/
def FaultsAt (s : State) (k : Nat) (r : Result) : Prop :=
  ∃ (st : Option Word) (ph : Phase) (vs : Vector Word 4) (cur : Word),
    r = .raise .eKeyFault (BitVec.ofNat 64 (s.kbase.toNat + k))
      { s with
        lbase := s.kbase, llen := s.klen, cur := cur, vs := vs, st := st, ph := ph, digest := none,
        keyReads := s.keyReads ++ List.range' s.kbase.toNat k }

section faults
variable {s : State} {k : Nat}

theorem FaultsAt.andThen {r : Result} (h : FaultsAt s k r) (next : State → Result) :
    FaultsAt s k (andThen r next) := by
  obtain ⟨st, ph, vs, cur, rfl⟩ := h
  exact ⟨st, ph, vs, cur, rfl⟩

/-- The bytes before the fault are a front of the key. -/
theorem KeyFault.front (h : KeyFault s k) : ∃ key : List Byte, key.length = k ∧ KeyFront s key := by
  have hlen : (Memory.readUpTo s.mem s.kbase.toNat s.klen.toNat).length = k := readUpTo_short h.inside h.stops
  exact ⟨_, hlen, h.range, hlen.trans_le h.inside.le, fun _ hj => Memory.readUpTo_get _ _ _ _ hj⟩

/-- The fault as a read finds it after `n` bytes. -/
theorem KeyFault.next (h : KeyFault s k) {n : Nat} (hn : n ≤ k) (ph : Phase) (x : Word) (vs : Vector Word 4) :
    FirstInvalid (s.hashing ph x vs n).mem (s.hashing ph x vs n).nextKey (k - n) := by
  rw [hashing_nextKey (hn.trans h.inside.le)]
  exact h.stops.shift n hn

/-- A read that starts after `n` bytes and raises at the fault. -/
theorem KeyFault.faultsAt (h : KeyFault s k) {n : Nat} (hn : n ≤ k) {ph : Phase} {x : Word} {vs : Vector Word 4}
    {r : Result}
    (hr : r = .raise .eKeyFault (BitVec.ofNat 64 ((s.hashing ph x vs n).nextKey + (k - n)))
      ((s.hashing ph x vs n).logKeys (List.range' (s.hashing ph x vs n).nextKey (k - n)))) :
    FaultsAt s k r := by
  refine ⟨some x, ph, vs, BitVec.ofNat 64 n, hr.trans ?_⟩
  rw [hashing_nextKey (hn.trans h.inside.le), Nat.add_assoc, Nat.add_sub_cancel' hn]
  simp only [State.logKeys, State.hashing, keyReads_continue, Nat.add_sub_cancel' hn]

theorem performVmix_faultsAt (h : KeyFault s k) {n : Nat} (hn : n ≤ k) (hk : k < n + 128)
    (hleft : n + 128 ≤ s.klen.toNat) (x : Word) (vs : Vector Word 4) :
    FaultsAt s k (performVmix (s.hashing .vec x vs n)) := by
  have hl : 128 ≤ (s.hashing .vec x vs n).left := by rw [hashing_left (by omega)]; omega
  exact h.faultsAt hn (performVmix_faults rfl hl (by omega) (h.next hn _ _ _))

theorem performBmix_faultsAt (h : KeyFault s k) {n : Nat} (hn : n ≤ k) (hk : k < n + 64)
    (hleft : n + 64 ≤ s.klen.toNat) (x : Word) (vs : Vector Word 4) :
    FaultsAt s k (performBmix (s.hashing .blk x vs n)) := by
  have hl : 64 ≤ (s.hashing .blk x vs n).left := by rw [hashing_left (by omega)]; omega
  exact h.faultsAt hn (performBmix_faults rfl hl (by omega) (h.next hn _ _ _))

theorem performTmix_faultsAt (h : KeyFault s k) {n : Nat} (hn : n ≤ k) (hleft : s.klen.toNat - n < 64) (x : Word)
    (vs : Vector Word 4) : FaultsAt s k (performTmix (s.hashing .blk x vs n)) := by
  have hinside := h.inside
  have hl := hashing_left (ph := .blk) (x := x) (vs := vs) (hn.trans hinside.le)
  exact h.faultsAt hn (performTmix_faults rfl (by rwa [hl]) (by rw [hl]; omega) (h.next hn _ _ _))

/-- A part performed `n` times faults where one round of it does. -/
theorem performTimes_faultsAt {body : State → Result} (f : Nat → State) {n j : Nat} (hj : j < n)
    (hwalk : ∀ i < j, body (f i) = .done (f (i + 1))) (hfault : FaultsAt s k (body (f j))) :
    FaultsAt s k (performTimes body n (f 0)) := by
  obtain ⟨st, ph, vs, cur, hraise⟩ := hfault
  exact ⟨st, ph, vs, cur, performTimes_raise f hj hwalk hraise⟩

variable {key : List Byte}

/-- The fault lies inside the vector layer: it stops the loop in vector block `k div 128`. -/
theorem performVectorLayer_faultsAt (h : KeyFault s k) (hfront : KeyFront s key) (hkey : key.length = k)
    (hk : k < vecExtent s.klen.toNat) : FaultsAt s k (performVectorLayer (s.opened key)) := by
  have hgate : 512 ≤ s.klen.toNat := by
    by_contra hgate
    rw [vecExtent_of_not_gate hgate] at hk
    omega
  rw [vecExtent_of_gate hgate] at hk
  rw [State.opened, if_pos hgate, performVectorLayer_vecStage]
  refine FaultsAt.andThen (performTimes_faultsAt (s.vecStage key) (j := k / 128) (by omega) (fun i hi => ?_) ?_) _
  · exact performVmix_vecStage hfront (by omega)
  · exact performVmix_faultsAt h (by omega) (by omega) (by omega) _ _

/-- The fault lies inside the blocks: it stops the loop in the block that holds it. -/
theorem performBlocks_faultsAt (h : KeyFault s k) (hfront : KeyFront s key) (hkey : key.length = k)
    (hvec : vecExtent s.klen.toNat ≤ k) (hk : k < vecExtent s.klen.toNat + 64 * s.blockCount) :
    FaultsAt s k (performBlocks (s.blockStage key 0)) := by
  obtain ⟨hfits, -⟩ := blockCount_fits (s := s)
  rw [performBlocks, blockStage_left]
  refine performTimes_faultsAt (s.blockStage key) (j := (k - vecExtent s.klen.toNat) / 64) (by omega)
    (fun i hi => ?_) ?_
  · exact performBmix_blockStage hfront (by omega)
  · exact performBmix_faultsAt h (by omega) (by omega) (by omega) _ _

/-- Wherever the fault lies, the command raises it in the stage whose bytes it is among. -/
theorem performHash64_faultsAt (h : KeyFault s k) : FaultsAt s k (performHash64 s) := by
  obtain ⟨key, hkey, hfront⟩ := h.front
  obtain ⟨hfits, hleft⟩ := blockCount_fits (s := s)
  rw [performHash64, performHinit_opened h.range (key := key), andThen_done]
  by_cases hvec : k < vecExtent s.klen.toNat
  case pos => exact (performVectorLayer_faultsAt h hfront hkey hvec).andThen _
  rw [performVectorLayer_opened hfront (by omega), andThen_done]
  by_cases hblk : k < vecExtent s.klen.toNat + 64 * s.blockCount
  case pos => exact (performBlocks_faultsAt h hfront hkey (by omega) hblk).andThen _
  rw [performBlocks_blockStage hfront (by omega), andThen_done]
  exact (performTmix_faultsAt h (by omega) hleft _ _).andThen _

end faults

end Sys2Proof.Machine

open Sys2Proof Sys2Proof.Machine

/-- Settles O43: both commands have the body whose stages lead to `State.hashed`. -/
theorem hashCommandComputesH64 : Obligations.HashCommandComputesH64 := by
  intro s i key herr hi hmax hend hlen hkey
  have hbody : performHash64 s = .done (s.hashed key) :=
    performHash64_hashed ⟨(rangeOk_iff s).mpr ⟨hmax, hend⟩, hlen.le, hkey⟩ hlen
  rcases hi with rfl | rfl
  · exact exec_done (i := .hash64) (by decide) herr hbody
  · exact exec_done (i := .vhash64) (by decide) herr hbody

/-- Settles O44: the commands of the sequence and the one command lead to the same `State.hashed`. -/
theorem stageSequenceEqualsHash64 : Obligations.StageSequenceEqualsHash64 := by
  intro s rest key herr hmax hend hlen hkey
  have hfront : KeyFront s key := ⟨(rangeOk_iff s).mpr ⟨hmax, hend⟩, hlen.le, hkey⟩
  rw [runs_stageSequence hfront herr hlen rest]
  exact (exec_hash64_hashed (hfront.setInbox rest) hlen herr).symm

/-- Settles O45: the fault is raised by the stage that meets it, and error entry hides what the stage left in `ST` and
`PH`. -/
theorem hashKeyFaultRecorded : Obligations.HashKeyFaultRecorded := by
  intro s i k herr hi hmax hend hk hstops
  obtain ⟨st, ph, vs, cur, hbody⟩ := performHash64_faultsAt ⟨(rangeOk_iff s).mpr ⟨hmax, hend⟩, hk, hstops⟩
  refine ⟨vs, cur, ?_⟩
  rcases hi with rfl | rfl
  · exact exec_raise (i := .hash64) (by decide) herr hbody
  · exact exec_raise (i := .vhash64) (by decide) herr hbody
end

section
/-! PROOF. The host port (10_state.md R22 to R24, 20_memory.md R50): the register map by ranges of numbers, and what a
write and a read of each range do. -/

namespace Sys2Proof.Machine

/-! ### The register map (10_state.md R22) -/

theorem regOf_opa : ∀ (i : Fin 4) (n : Fin 64), n.val = 8 + i.val → regOf n = .opa i := by decide
theorem regOf_opb : ∀ (i : Fin 4) (n : Fin 64), n.val = 12 + i.val → regOf n = .opb i := by decide
theorem regOf_res : ∀ (i : Fin 4) (n : Fin 64), n.val = 16 + i.val → regOf n = .res i := by decide
theorem regOf_seed512 : ∀ (i : Fin 8) (n : Fin 64), n.val = 24 + i.val → regOf n = .seed512 i := by decide
theorem regOf_digest512 : ∀ (i : Fin 8) (n : Fin 64), n.val = 32 + i.val → regOf n = .digest512 i := by decide
theorem regOf_pout512 : ∀ (i : Fin 8) (n : Fin 64), n.val = 40 + i.val → regOf n = .pout512 i := by decide

theorem regOf_zero_valued : ∀ n : Fin 64, n.val = 1 ∨ n.val = 22 ∨ n.val = 23 ∨ 48 ≤ n.val →
    regOf n = .cmd ∨ regOf n = .reserved := by
  decide

/-- The registers a host write changes (10_state.md R22: RW). -/
def Reg.writable : Reg → Bool
  | .seed | .kbase | .klen | .opa _ | .opb _ | .seed512 _ => true
  | .cfg | .cmd | .status | .errinfo | .digest | .res _ | .pout | .erraddr | .digest512 _ | .pout512 _
  | .reserved => false

theorem regOf_not_writable : ∀ n : Fin 64,
    n.val ∈ ([0, 2, 3, 7] : List Nat) ∨ (16 ≤ n.val ∧ n.val < 24) ∨ 32 ≤ n.val →
    n ≠ cmdReg ∧ (regOf n).writable = false := by
  decide

/-! ### Writes -/

/-- A write to an RO or reserved register is ignored (10_state.md R23). -/
theorem hostWrite_not_writable {n : Fin 64} (h : (regOf n).writable = false) (v : Word) (s : State) :
    hostWrite n v s = s := by
  unfold hostWrite
  generalize regOf n = r at h ⊢
  cases r with
  | seed | kbase | klen | opa | opb | seed512 => cases h
  | _ => rfl

theorem hostWrite_opa {n : Fin 64} {i : Fin 4} (h : n.val = 8 + i.val) (v : Word) (s : State) :
    hostWrite n v s = { s with opa := s.opa.set i v } := by
  simp only [hostWrite, regOf_opa i n h]

theorem hostWrite_opb {n : Fin 64} {i : Fin 4} (h : n.val = 12 + i.val) (v : Word) (s : State) :
    hostWrite n v s = { s with opb := s.opb.set i v } := by
  simp only [hostWrite, regOf_opb i n h]

theorem hostWrite_seed512 {n : Fin 64} {i : Fin 8} (h : n.val = 24 + i.val) (v : Word) (s : State) :
    hostWrite n v s = { s with seed512 := s.seed512.set i v } := by
  simp only [hostWrite, regOf_seed512 i n h]

/-- A register number other than 1 is not `CMD`. -/
theorem ne_cmdReg {n : Fin 64} (h : n.val ≠ 1) : n ≠ cmdReg :=
  fun heq => h (congrArg Fin.val heq)

/-! ### Reads -/

/-- A read records one value, which is the register's where that is specified (10_state.md R23, R24). -/
theorem hostRead_spec (n : Fin 64) (s : State) :
    ∃ v k, hostRead n s = { s with hostReads := (n, v) :: s.hostReads, freeCtr := k }
      ∧ ∀ d, regValue s (regOf n) = some d → v = d := by
  cases hr : regValue s (regOf n) with
  | some v => exact ⟨v, s.freeCtr, by simp [hostRead, hr], fun d hd => Option.some.inj hd⟩
  | none => exact ⟨Config.unspecifiedRead s.freeCtr, s.freeCtr + 1, by simp [hostRead, hr], fun d hd => nomatch hd⟩

end Sys2Proof.Machine

open Sys2Proof Sys2Proof.Machine

/-- Settles O4. -/
theorem stepRunsDecodedCommand : Obligations.StepRunsDecodedCommand := by
  refine ⟨fun s rest v i hinbox hdecode => step_command hinbox hdecode, fun s hinbox => ?idle⟩
  case idle => simp [step, fetch, hinbox]

/-- Settles O5, one clause of the register map at a time. -/
theorem registerWriteTakesEffect : Obligations.RegisterWriteTakesEffect := by
  intro s rest n v hinbox
  have hwrite (hn : n ≠ cmdReg) := step_write hn hinbox
  refine ⟨fun h => ?seed, fun h => ?kbase, fun h => ?klen, fun i h => ?opa, fun i h => ?opb, fun i h => ?seed512,
    fun h => ?ignored⟩
  case seed =>
    obtain rfl : n = 4 := Fin.ext h
    exact hwrite (by decide)
  case kbase =>
    obtain rfl : n = 5 := Fin.ext h
    exact hwrite (by decide)
  case klen =>
    obtain rfl : n = 6 := Fin.ext h
    exact hwrite (by decide)
  case opa => rw [hwrite (ne_cmdReg (by omega)), hostWrite_opa h]
  case opb => rw [hwrite (ne_cmdReg (by omega)), hostWrite_opb h]
  case seed512 => rw [hwrite (ne_cmdReg (by omega)), hostWrite_seed512 h]
  case ignored =>
    obtain ⟨hcmd, hro⟩ := regOf_not_writable n h
    rw [hwrite hcmd, hostWrite_not_writable hro]

/-- Settles O6: the read records `regValue` of the register, clause by clause of the register map. -/
theorem registerReadReturnsValue : Obligations.RegisterReadReturnsValue := by
  intro s rest n hinbox
  obtain ⟨v, k, hread, hvalue⟩ := hostRead_spec n { s with inbox := rest }
  have hreg {r : Reg} {d : Word} (hr : regOf n = r) (hd : regValue { s with inbox := rest } r = some d) : v = d :=
    hvalue d (hr ▸ hd)
  have hnum {m : Fin 64} {d : Word} (hn : n.val = m.val)
      (hd : regValue { s with inbox := rest } (regOf m) = some d) : v = d :=
    hreg (congrArg regOf (Fin.ext hn)) hd
  refine ⟨v, k, (step_read hinbox).trans (congrArg Host.Outcome.next hread), fun h => hnum (m := 0) h rfl,
    fun h => hnum (m := 2) h rfl, fun h => hnum (m := 3) h rfl, fun h => hnum (m := 21) h rfl,
    fun h => hnum (m := 4) h rfl, fun h => hnum (m := 5) h rfl, fun h => hnum (m := 6) h rfl,
    fun i h => hreg (regOf_opa i n h) rfl, fun i h => hreg (regOf_opb i n h) rfl,
    fun i h => hreg (regOf_seed512 i n h) rfl, fun d h hd => hnum (m := 7) h hd, fun d h hd => hnum (m := 20) h hd,
    fun r i h hr => hreg (regOf_res i n h) (congrArg (Option.map _) hr),
    fun d i h hd => hreg (regOf_digest512 i n h) (congrArg (Option.map _) hd),
    fun d i h hd => hreg (regOf_pout512 i n h) (congrArg (Option.map _) hd), fun h => ?zero⟩
  case zero =>
    rcases regOf_zero_valued n h with hr | hr
    · exact hreg hr rfl
    · exact hreg hr rfl
end

section
/-! PROOF. The fields of the two status words (10_state.md R21, R25): a field at the low end, single bits above it, and
zeros above those. -/

namespace Sys2Proof.Machine

/-- The bits of a value from bit 0 up are those listed, and 0 above them. -/
def HasBits {n : Nat} (x : BitVec n) (bits : List Bool) : Prop := ∀ i, x.getLsbD i = bits.getD i false

theorem hasBits_zero (n : Nat) : HasBits (0 : BitVec n) [] :=
  fun _ => BitVec.getLsbD_zero

section bits
variable {n : Nat} {x : BitVec n} {bits : List Bool}

/-- Bits of the upper part of a value stand above its lower part. -/
theorem HasBits.getLsbD_append (h : HasBits x bits) {m : Nat} (y : BitVec m) (i : Nat) :
    (x ++ y).getLsbD (m + i) = bits.getD i false := by
  rw [BitVec.getLsbD_append, if_neg (Nat.not_lt.mpr (Nat.le_add_right m i)), Nat.add_sub_cancel_left, h]

/-- One more bit at the low end. -/
theorem HasBits.append_bit (h : HasBits x bits) (b : Bool) : HasBits (x ++ BitVec.ofBool b) (b :: bits) := by
  intro i
  cases i with
  | zero =>
    rw [BitVec.getLsbD_append, if_pos Nat.one_pos]
    cases b <;> rfl
  | succ i => rw [Nat.add_comm i 1, h.getLsbD_append, Nat.add_comm 1 i, List.getD_cons_succ]

/-- Above the last listed bit there are zeros. -/
theorem HasBits.extract_above (h : HasBits x bits) {m : Nat} (y : BitVec m) {start : Nat}
    (hstart : start = m + bits.length) (len : Nat) : (x ++ y).extractLsb' start len = 0 := by
  subst hstart
  apply BitVec.eq_of_getLsbD_eq
  intro i _
  have habove : (x ++ y).getLsbD (m + (bits.length + i)) = false := by
    rw [h.getLsbD_append, List.getD_eq_default _ _ (Nat.le_add_right _ _)]
  rw [BitVec.getLsbD_extractLsb', Nat.add_assoc, habove, Bool.and_false]
  exact BitVec.getLsbD_zero.symm

end bits

/-- `STATUS` above its field `ERR` (10_state.md R25). -/
def statusFlags (s : State) : BitVec 60 :=
  (0 : BitVec 53) ++ validBit s.pstate512 ++ validBit s.pstate ++ validBit s.pout512 ++ validBit s.pout
    ++ validBit s.digest512 ++ validBit s.res ++ validBit s.digest

theorem statusWord_eq_append (s : State) : statusWord s = statusFlags s ++ s.err.code := rfl

theorem statusFlags_hasBits (s : State) : HasBits (statusFlags s)
    [s.digest.isSome, s.res.isSome, s.digest512.isSome, s.pout.isSome, s.pout512.isSome, s.pstate.isSome,
      s.pstate512.isSome] :=
  (hasBits_zero 53).append_bit _ |>.append_bit _ |>.append_bit _ |>.append_bit _ |>.append_bit _ |>.append_bit _
    |>.append_bit _

theorem foldBit_eq_ofBool (f : Fold) : foldBit f = BitVec.ofBool (decide (f = .add)) := by
  cases f <;> rfl

/-- `CFG` above its field `VLENC` (10_state.md R21). -/
def cfgFlags (c : Cfg) : BitVec 62 :=
  (0 : BitVec 51) ++ foldBit c.fold.f512 ++ foldBit c.fold.fFin ++ foldBit c.fold.aVred ++ foldBit c.fold.fVred
    ++ foldBit c.fold.aTail ++ foldBit c.fold.fTail ++ foldBit c.fold.aBlk ++ foldBit c.fold.fBlk
    ++ foldBit c.fold.fInit ++ BitVec.ofBool c.nmul ++ BitVec.ofBool c.salign

theorem cfgWord_eq_append (c : Cfg) : cfgWord c = cfgFlags c ++ vlenCode c.vlen := rfl

theorem cfgFlags_hasBits (c : Cfg) : HasBits (cfgFlags c)
    [c.salign, c.nmul, decide (c.fold.fInit = .add), decide (c.fold.fBlk = .add), decide (c.fold.aBlk = .add),
      decide (c.fold.fTail = .add), decide (c.fold.aTail = .add), decide (c.fold.fVred = .add),
      decide (c.fold.aVred = .add), decide (c.fold.fFin = .add), decide (c.fold.f512 = .add)] := by
  simp only [cfgFlags, foldBit_eq_ofBool]
  exact (hasBits_zero 51).append_bit _ |>.append_bit _ |>.append_bit _ |>.append_bit _ |>.append_bit _
    |>.append_bit _ |>.append_bit _ |>.append_bit _ |>.append_bit _ |>.append_bit _ |>.append_bit _

end Sys2Proof.Machine

open Sys2Proof Sys2Proof.Machine

/-- Settles O7: the code of `ERR` at the low end, the seven flags above it, and zeros. -/
theorem statusWordFields : Obligations.StatusWordFields := by
  intro s
  have hflag (i : Nat) := (statusFlags_hasBits s).getLsbD_append s.err.code i
  have hcode : (statusFlags s ++ s.err.code).extractLsb' 0 4 = s.err.code := BitVec.extractLsb'_append_eq_right
  rw [statusWord_eq_append]
  refine ⟨hcode.trans ?_, hflag 0, hflag 1, hflag 2, hflag 3, hflag 4, hflag 5, hflag 6,
    (statusFlags_hasBits s).extract_above _ rfl _⟩
  cases s.err <;> rfl

/-- Settles O8: the code of `VLEN` at the low end, the eleven flags above it, and zeros. -/
theorem cfgWordFields : Obligations.CfgWordFields := by
  intro c
  have hflag (i : Nat) := (cfgFlags_hasBits c).getLsbD_append (vlenCode c.vlen) i
  have hcode : (cfgFlags c ++ vlenCode c.vlen).extractLsb' 0 2 = vlenCode c.vlen :=
    BitVec.extractLsb'_append_eq_right
  rw [cfgWord_eq_append]
  refine ⟨hcode.trans ?_, hflag 0, hflag 1, hflag 2, hflag 3, hflag 4, hflag 5, hflag 6, hflag 7, hflag 8, hflag 9,
    hflag 10, (cfgFlags_hasBits c).extract_above _ rfl _⟩
  cases c.vlen <;> rfl
end

section
/-! PROOF. What a command leaves unchanged (45_prng_system.md R144, 10_state.md R12, 20_memory.md R44, R45): the frame of
each group of commands as a relation between the states before and after its body, carried through the shared
operations and through error entry. -/

namespace Sys2Proof.Machine

/-! ### Frames of a part of a command -/

/-- The state a part of a command leads to, where it completes and where it raises an error, has `P`. -/
def Result.Leaves (P : State → Prop) : Result → Prop
  | .done t => P t
  | .raise e _ t => e ≠ .eNone ∧ P t
  | .stuck _ => True

theorem Result.Leaves.mono {P Q : State → Prop} {r : Result} (h : r.Leaves P) (hpq : ∀ t, P t → Q t) :
    r.Leaves Q := by
  cases r with
  | done t => exact hpq t h
  | raise e a t => exact ⟨h.left, hpq t h.right⟩
  | stuck f => trivial

theorem leaves_andThen {P Q : State → Prop} {r : Result} {k : State → Result} (hr : r.Leaves P)
    (hpq : ∀ t, P t → Q t) (hk : ∀ t, P t → (k t).Leaves Q) : (andThen r k).Leaves Q := by
  cases r with
  | done t => exact hk t hr
  | raise e a t => exact ⟨hr.left, hpq t hr.right⟩
  | stuck f => trivial

theorem leaves_performTimes {P : State → Prop} {body : State → Result} (hbody : ∀ t, P t → (body t).Leaves P)
    (n : Nat) {s : State} (h : P s) : (performTimes body n s).Leaves P := by
  induction n generalizing s with
  | zero => exact h
  | succ n ih => exact leaves_andThen (hbody s h) (fun _ ht => ht) fun _ => ih

theorem leaves_checkRange {P : State → Prop} {k : State → Result} {s : State} (h : P s) (hk : (k s).Leaves P) :
    (checkRange k s).Leaves P := by
  rcases checkRange_cases k s with ⟨-, heq⟩ | ⟨-, heq⟩ <;> rw [heq]
  · exact hk
  · exact ⟨by decide, h⟩

theorem leaves_checkStage {P : State → Prop} {legal : Bool} {k : State → Result} {s : State} (h : P s)
    (hk : legal = true → (k s).Leaves P) : (checkStage legal k s).Leaves P := by
  rcases checkStage_cases legal k s with ⟨hlegal, heq⟩ | ⟨-, heq⟩ <;> rw [heq]
  · exact hk hlegal
  · exact ⟨by decide, h⟩

theorem leaves_withST {P : State → Prop} {k : Word → State → Result} {s : State} (hk : ∀ x, (k x s).Leaves P) :
    (withST k s).Leaves P := by
  cases hst : s.st with
  | some x => rw [withST_valid k hst]; exact hk x
  | none => rw [withST_invalid k hst]; trivial

/-- Every address of the list is valid and inside the key of `len` bytes at `base` (20_memory.md R44). -/
def ReadsWithin (m : Memory) (base len : Nat) (as : List Nat) : Prop :=
  ∀ a ∈ as, (Memory.read m a).isSome = true ∧ base ≤ a ∧ a < base + len

theorem ReadsWithin.append {m : Memory} {base len : Nat} {as bs : List Nat} (ha : ReadsWithin m base len as)
    (hb : ReadsWithin m base len bs) : ReadsWithin m base len (as ++ bs) :=
  fun a h => (List.mem_append.mp h).elim (ha a) (hb a)

/-- `n` valid addresses in a row, starting `i` bytes into the key and ending inside it. -/
theorem readsWithin_range' {m : Memory} {base len i n : Nat}
    (hvalid : ∀ j < n, (Memory.read m (base + i + j)).isSome = true) (hin : n = 0 ∨ i + n ≤ len) : ReadsWithin m base len (List.range' (base + i) n) := by
  intro a ha
  obtain ⟨j, hj, rfl⟩ := List.mem_range'.mp ha
  rw [Nat.one_mul]
  exact ⟨hvalid j hj, by omega, by omega⟩

/-- `MemRead` inside the key: it and what follows it leave what they leave after some reads inside the key. -/
theorem leaves_withKey {P : State → Prop} {base len i n : Nat} {k : List Byte → State → Result} {s : State}
    (hin : n = 0 ∨ i + n ≤ len)
    (hlog : ∀ as, ReadsWithin s.mem base len as → P (s.logKeys as))
    (hk : ∀ b as, ReadsWithin s.mem base len as → (k b (s.logKeys as)).Leaves P) :
    (withKey (base + i) n k s).Leaves P := by
  rcases withKey_cases (base + i) n k s with ⟨b, hlen, hread, heq⟩ | ⟨j, hj, hread, -, heq⟩ <;> rw [heq]
  · exact hk b _ (readsWithin_range' (fun j hj => by rw [hread j (hlen ▸ hj)]; rfl) hin)
  · exact ⟨by decide, hlog _ (readsWithin_range' hread (by omega))⟩

/-! ### The 64-bit hash commands -/

/-- What the parts of an open hash may touch: `DIGEST`, the hash state and the phase, and the event history by reads
inside the latched key. -/
def HashPart (s t : State) : Prop :=
  ∃ digest st vs ph cur as,
    t = { s with digest := digest, st := st, vs := vs, ph := ph, cur := cur, keyReads := s.keyReads ++ as }
      ∧ ReadsWithin s.mem s.lbase.toNat s.llen.toNat as

theorem readsWithin_nil (m : Memory) (base len : Nat) : ReadsWithin m base len [] :=
  fun _ h => absurd h List.not_mem_nil

/-- A part that reads no key byte. -/
theorem hashPart_update (s : State) (digest : Option Word) (st : Option Word) (vs : Vector Word 4) (ph : Phase)
    (cur : Word) : HashPart s { s with digest := digest, st := st, vs := vs, ph := ph, cur := cur } :=
  ⟨digest, st, vs, ph, cur, [], by rw [List.append_nil], readsWithin_nil _ _ _⟩

theorem HashPart.refl (s : State) : HashPart s s := hashPart_update s _ _ _ _ _

theorem HashPart.trans {s t u : State} (h : HashPart s t) (h' : HashPart t u) : HashPart s u := by
  obtain ⟨_, _, _, _, _, as, rfl, has⟩ := h
  obtain ⟨_, _, _, _, _, bs, rfl, hbs⟩ := h'
  exact ⟨_, _, _, _, _, as ++ bs, by rw [← List.append_assoc], has.append hbs⟩

theorem hashPart_logKeys {s : State} {as : List Nat} (h : ReadsWithin s.mem s.lbase.toNat s.llen.toNat as) :
    HashPart s (s.logKeys as) :=
  ⟨_, _, _, _, _, as, rfl, h⟩

section hashParts
variable (s : State)

theorem performVmix_frame : (performVmix s).Leaves (HashPart s) := by
  refine leaves_checkStage (.refl s) fun hlegal => leaves_withKey ?_ (fun as => hashPart_logKeys) fun b as has => ?_
  · obtain ⟨-, hleft⟩ : s.ph = .vec ∧ 128 ≤ s.left := by simpa using hlegal
    simp only [State.left] at hleft
    omega
  · exact (hashPart_logKeys has).trans (hashPart_update _ _ _ _ _ _)

theorem performVred_frame : (performVred s).Leaves (HashPart s) :=
  leaves_checkStage (.refl s) fun _ => leaves_withST fun _ => hashPart_update s _ _ _ _ _

theorem performBmix_frame : (performBmix s).Leaves (HashPart s) := by
  refine leaves_checkStage (.refl s) fun hlegal => leaves_withKey ?_ (fun as => hashPart_logKeys) fun b as has => ?_
  · obtain ⟨-, hleft⟩ : s.ph = .blk ∧ 64 ≤ s.left := by simpa using hlegal
    simp only [State.left] at hleft
    omega
  · exact leaves_withST fun _ => (hashPart_logKeys has).trans (hashPart_update _ _ _ _ _ _)

theorem performTmix_frame : (performTmix s).Leaves (HashPart s) := by
  refine leaves_checkStage (.refl s) fun _ => leaves_withKey ?_ (fun as => hashPart_logKeys) fun b as has => ?_
  · simp only [State.left]
    omega
  · exact leaves_withST fun _ => (hashPart_logKeys has).trans (hashPart_update _ _ _ _ _ _)

theorem performHfin_frame : (performHfin s).Leaves (HashPart s) :=
  leaves_checkStage (.refl s) fun _ => leaves_withST fun _ => hashPart_update s _ _ _ _ _

/-- A part of an open hash continues what came before it. -/
theorem HashPart.extend {s t : State} (h : HashPart s t) {r : Result} (hr : r.Leaves (HashPart t)) :
    r.Leaves (HashPart s) :=
  hr.mono fun _ => h.trans

theorem performVectorLayer_frame : (performVectorLayer s).Leaves (HashPart s) := by
  unfold performVectorLayer
  split
  · exact leaves_andThen (leaves_performTimes (fun t ht => ht.extend (performVmix_frame t)) _ (.refl s))
      (fun _ ht => ht) fun t ht => ht.extend (performVred_frame t)
  · exact .refl s

theorem performBlocks_frame : (performBlocks s).Leaves (HashPart s) :=
  leaves_performTimes (fun t ht => ht.extend (performBmix_frame t)) _ (.refl s)

/-- What `HINIT` and the one-shot hashes may touch: they latch `KBASE` and `KLEN` first, unless the range check
raises. -/
def HashOpened (s t : State) : Prop := t = s ∨ HashPart s.openHash t

theorem performHinit_frame : (performHinit s).Leaves (HashOpened s) :=
  leaves_checkRange (.inl rfl) (.inr (.refl s.openHash))

theorem performHash64_frame : (performHash64 s).Leaves (HashOpened s) := by
  rcases checkRange_cases (fun s => .done s.openHash) s with ⟨-, heq⟩ | ⟨-, heq⟩
  · have hinit : performHinit s = .done s.openHash := heq
    rw [performHash64, hinit, andThen_done]
    refine Result.Leaves.mono ?_ fun _ => Or.inr
    refine leaves_andThen (performVectorLayer_frame _) (fun _ ht => ht) fun t ht => ?_
    refine leaves_andThen (ht.extend (performBlocks_frame t)) (fun _ ht => ht) fun t ht => ?_
    refine leaves_andThen (ht.extend (performTmix_frame t)) (fun _ ht => ht) fun t ht => ?_
    exact ht.extend (performHfin_frame t)
  · have hinit : performHinit s = .raise .eRange 0 s := heq
    rw [performHash64, hinit, andThen_raise]
    exact ⟨by decide, .inl rfl⟩

end hashParts

/-! ### The bodies of all commands, group by group (45_prng_system.md R144) -/

/-- The 64-bit hash commands touch the digest, the hash and sequencing state and the event history. -/
def HashFrame (s t : State) : Prop :=
  ∃ digest st vs ph cur lbase llen keyReads,
    t = { s with
      digest := digest, st := st, vs := vs, ph := ph, cur := cur, lbase := lbase, llen := llen,
      keyReads := keyReads }

/-- `HASH512` touches its digest, and reads inside `KBASE`, `KLEN`. -/
def Hash512Frame (s t : State) : Prop :=
  ∃ digest512 st512 as,
    t = { s with digest512 := digest512, st512 := st512, keyReads := s.keyReads ++ as }
      ∧ ReadsWithin s.mem s.kbase.toNat s.klen.toNat as

/-- The 64-bit generator. -/
def GenFrame (s t : State) : Prop :=
  ∃ pstate pctr pout, t = { s with pstate := pstate, pctr := pctr, pout := pout }

/-- The 512-bit generator. -/
def Gen512Frame (s t : State) : Prop :=
  ∃ pstate512 pctr512 pout512 st512,
    t = { s with pstate512 := pstate512, pctr512 := pctr512, pout512 := pout512, st512 := st512 }

/-- What the bodies of all commands but `SRST` touch together: no input, and nothing of the error record. -/
def BodyFrame (s t : State) : Prop :=
  t = { s with
    res := t.res, digest := t.digest, digest512 := t.digest512, pout := t.pout, pout512 := t.pout512, st := t.st,
    vs := t.vs, st512 := t.st512, ph := t.ph, cur := t.cur, lbase := t.lbase, llen := t.llen, pstate := t.pstate,
    pctr := t.pctr, pstate512 := t.pstate512, pctr512 := t.pctr512, keyReads := t.keyReads }

theorem HashPart.hashFrame {s t : State} (h : HashPart s t) : HashFrame s t := by
  obtain ⟨_, _, _, _, _, _, rfl, -⟩ := h
  exact ⟨_, _, _, _, _, _, _, _, rfl⟩

theorem HashOpened.hashFrame {s t : State} (h : HashOpened s t) : HashFrame s t := by
  rcases h with rfl | ⟨_, _, _, _, _, _, rfl, -⟩
  · exact ⟨_, _, _, _, _, _, _, _, rfl⟩
  · exact ⟨_, _, _, _, _, _, _, _, rfl⟩

section bodies
variable {s t : State} {i : Instr}

theorem HashFrame.bodyFrame (h : HashFrame s t) : BodyFrame s t := by
  obtain ⟨_, _, _, _, _, _, _, _, rfl⟩ := h
  rfl

theorem Hash512Frame.bodyFrame (h : Hash512Frame s t) : BodyFrame s t := by
  obtain ⟨_, _, _, rfl, -⟩ := h
  rfl

theorem GenFrame.bodyFrame (h : GenFrame s t) : BodyFrame s t := by
  obtain ⟨_, _, _, rfl⟩ := h
  rfl

theorem Gen512Frame.bodyFrame (h : Gen512Frame s t) : BodyFrame s t := by
  obtain ⟨_, _, _, _, rfl⟩ := h
  rfl

/-- A primitive writes the result file and never raises. -/
theorem commandBody_primitive (hi : isPrimitive i = true) (s : State) :
    ∃ r, commandBody i s = .done (s.setRes r) := by
  cases i with
  | mulw | mumx | muma | mulw128 | mum128x | mum128a | vmum32 | mumc => exact ⟨_, rfl⟩
  | nop | srst | hinit | vmix | vred | bmix | tmix | hfin | hash64 | vhash64 | hash512 | pseed | pnext | pseed512
  | pnext512 => cases hi

theorem commandBody_hash (hi : isHash i = true) (s : State) : (commandBody i s).Leaves (HashFrame s) := by
  cases i with
  | hinit => exact (performHinit_frame s).mono fun _ => HashOpened.hashFrame
  | vmix => exact (performVmix_frame s).mono fun _ => HashPart.hashFrame
  | vred => exact (performVred_frame s).mono fun _ => HashPart.hashFrame
  | bmix => exact (performBmix_frame s).mono fun _ => HashPart.hashFrame
  | tmix => exact (performTmix_frame s).mono fun _ => HashPart.hashFrame
  | hfin => exact (performHfin_frame s).mono fun _ => HashPart.hashFrame
  | hash64 | vhash64 => exact (performHash64_frame s).mono fun _ => HashOpened.hashFrame
  | nop | srst | mulw | mumx | muma | mulw128 | mum128x | mum128a | vmum32 | mumc | hash512 | pseed | pnext
  | pseed512 | pnext512 => cases hi

theorem performHash512_frame (s : State) : (performHash512 s).Leaves (Hash512Frame s) := by
  have hnone : Hash512Frame s s := ⟨_, _, [], by rw [List.append_nil], readsWithin_nil _ _ _⟩
  exact leaves_checkRange hnone (leaves_withKey (i := 0) (s := s.dropDigest512) (by omega)
    (fun as has => ⟨_, _, as, rfl, has⟩) fun _ as has => ⟨_, _, as, rfl, has⟩)

theorem performPnext_frame (s : State) : (performPnext s).Leaves (GenFrame s) := by
  unfold performPnext
  split
  · exact ⟨by decide, _, _, _, rfl⟩
  · exact ⟨_, _, _, rfl⟩

theorem performPnext512_frame (s : State) : (performPnext512 s).Leaves (Gen512Frame s) := by
  unfold performPnext512
  split
  · exact ⟨by decide, _, _, _, _, rfl⟩
  · exact ⟨_, _, _, _, rfl⟩

theorem commandBody_gen (hi : i = .pseed ∨ i = .pnext) (s : State) : (commandBody i s).Leaves (GenFrame s) := by
  rcases hi with rfl | rfl
  · exact ⟨_, _, _, rfl⟩
  · exact performPnext_frame s

theorem commandBody_gen512 (hi : i = .pseed512 ∨ i = .pnext512) (s : State) :
    (commandBody i s).Leaves (Gen512Frame s) := by
  rcases hi with rfl | rfl
  · exact ⟨_, _, _, _, rfl⟩
  · exact performPnext512_frame s

theorem commandBody_frame (hi : i ≠ .srst) (s : State) : (commandBody i s).Leaves (BodyFrame s) := by
  cases i with
  | srst => exact absurd rfl hi
  | nop => exact rfl
  | mulw | mumx | muma | mulw128 | mum128x | mum128a | vmum32 | mumc => exact rfl
  | hinit | vmix | vred | bmix | tmix | hfin | hash64 | vhash64 =>
    exact (commandBody_hash rfl s).mono fun _ => HashFrame.bodyFrame
  | hash512 => exact (performHash512_frame s).mono fun _ => Hash512Frame.bodyFrame
  | pseed => exact (commandBody_gen (.inl rfl) s).mono fun _ => GenFrame.bodyFrame
  | pnext => exact (commandBody_gen (.inr rfl) s).mono fun _ => GenFrame.bodyFrame
  | pseed512 => exact (commandBody_gen512 (.inl rfl) s).mono fun _ => Gen512Frame.bodyFrame
  | pnext512 => exact (commandBody_gen512 (.inr rfl) s).mono fun _ => Gen512Frame.bodyFrame

/-- No other command touches the state of an open 64-bit hash. -/
theorem commandBody_keeps_hash (hi : i ≠ .srst) (hhash : isHash i = false) (s : State) :
    (commandBody i s).Leaves fun t => t.st = s.st ∧ t.ph = s.ph := by
  cases i with
  | srst => exact absurd rfl hi
  | nop | mulw | mumx | muma | mulw128 | mum128x | mum128a | vmum32 | mumc | pseed | pseed512 => exact ⟨rfl, rfl⟩
  | hash512 =>
    refine (performHash512_frame s).mono fun t ht => ?_
    obtain ⟨_, _, _, rfl, -⟩ := ht
    exact ⟨rfl, rfl⟩
  | pnext =>
    refine (performPnext_frame s).mono fun t ht => ?_
    obtain ⟨_, _, _, rfl⟩ := ht
    exact ⟨rfl, rfl⟩
  | pnext512 =>
    refine (performPnext512_frame s).mono fun t ht => ?_
    obtain ⟨_, _, _, _, rfl⟩ := ht
    exact ⟨rfl, rfl⟩
  | hinit | vmix | vred | bmix | tmix | hfin | hash64 | vhash64 => cases hhash

/-! ### The reads of a command (20_memory.md R44, R45) -/

/-- The event history grows by reads inside one key. -/
def ReadsKey (base len : Word) (s t : State) : Prop :=
  ∃ as, t.keyReads = s.keyReads ++ as ∧ ReadsWithin s.mem base.toNat len.toNat as

theorem readsKey_refl (base len : Word) (s : State) : ReadsKey base len s s :=
  ⟨[], (List.append_nil _).symm, readsWithin_nil _ _ _⟩

theorem HashPart.readsKey (h : HashPart s t) : ReadsKey s.lbase s.llen s t := by
  obtain ⟨_, _, _, _, _, as, rfl, has⟩ := h
  exact ⟨as, rfl, has⟩

theorem HashOpened.readsKey (h : HashOpened s t) : ReadsKey s.kbase s.klen s t := by
  rcases h with rfl | h
  · exact readsKey_refl _ _ _
  · exact h.readsKey

theorem Hash512Frame.readsKey (h : Hash512Frame s t) : ReadsKey s.kbase s.klen s t := by
  obtain ⟨_, _, as, rfl, has⟩ := h
  exact ⟨as, rfl, has⟩

/-- A one-shot hash reads the key that `KBASE` and `KLEN` name. -/
theorem commandBody_reads_oneShot (hi : i ∈ ([.hash64, .vhash64, .hash512] : List Instr)) (s : State) :
    (commandBody i s).Leaves (ReadsKey s.kbase s.klen s) := by
  simp only [List.mem_cons, List.not_mem_nil, or_false] at hi
  rcases hi with rfl | rfl | rfl
  · exact (performHash64_frame s).mono fun _ => HashOpened.readsKey
  · exact (performHash64_frame s).mono fun _ => HashOpened.readsKey
  · exact (performHash512_frame s).mono fun _ => Hash512Frame.readsKey

/-- A stage command reads the latched key. -/
theorem commandBody_reads_stage (hi : i ∈ ([.vmix, .bmix, .tmix] : List Instr)) (s : State) :
    (commandBody i s).Leaves (ReadsKey s.lbase s.llen s) := by
  simp only [List.mem_cons, List.not_mem_nil, or_false] at hi
  rcases hi with rfl | rfl | rfl
  · exact (performVmix_frame s).mono fun _ => HashPart.readsKey
  · exact (performBmix_frame s).mono fun _ => HashPart.readsKey
  · exact (performTmix_frame s).mono fun _ => HashPart.readsKey

/-- Every other command reads no key byte. -/
theorem commandBody_reads_nothing (honeShot : i ∉ ([.hash64, .vhash64, .hash512] : List Instr))
    (hstage : i ∉ ([.vmix, .bmix, .tmix] : List Instr)) (s : State) :
    (commandBody i s).Leaves fun t => t.keyReads = s.keyReads := by
  cases i with
  | hash64 | vhash64 | hash512 => simp at honeShot
  | vmix | bmix | tmix => simp at hstage
  | nop | srst | mulw | mumx | muma | mulw128 | mum128x | mum128a | vmum32 | mumc | pseed | pseed512 => exact rfl
  | hinit => exact leaves_checkRange (P := fun t => t.keyReads = s.keyReads) (k := fun t => .done t.openHash) rfl rfl
  | vred | hfin =>
    exact leaves_checkStage (P := fun t => t.keyReads = s.keyReads) rfl fun _ => leaves_withST fun _ => rfl
  | pnext =>
    refine (performPnext_frame s).mono fun t ht => ?_
    obtain ⟨_, _, _, rfl⟩ := ht
    rfl
  | pnext512 =>
    refine (performPnext512_frame s).mono fun t ht => ?_
    obtain ⟨_, _, _, _, rfl⟩ := ht
    rfl

/-! ### From bodies to commands -/

/-- A body leaves the error record to the frame of the command (60_exceptions.md R152). -/
theorem BodyFrame.errorKept (h : BodyFrame s t) :
    t.err = s.err ∧ t.errinfo = s.errinfo ∧ t.erraddr = s.erraddr := by
  rw [BodyFrame] at h
  rw [h]
  exact ⟨rfl, rfl, rfl⟩

/-- What a command leads to, with `P` of what its body leads to: it is ignored, its body completes, or its body raises
and error entry follows. -/
theorem exec_next_of_leaves {P : State → Prop} (hi : i ≠ .srst) (h : exec i s = .next t)
    (hbody : (commandBody i s).Leaves P) :
    t = s ∨ P t ∨ ∃ e a u, P u ∧ t = raiseError e (encode i) a u := by
  rcases exec_next h with ⟨hsrst, -⟩ | ⟨-, -, ht⟩ | ⟨-, -, hr⟩ | ⟨e, a, u, -, -, hr, ht⟩
  · exact absurd hsrst hi
  · exact .inl ht
  · rw [hr] at hbody
    exact .inr (.inl hbody)
  · rw [hr] at hbody
    exact .inr (.inr ⟨e, a, u, hbody.right, ht⟩)

/-- A command that changes `ERR` found no error recorded and enters one; any other keeps the error record, and is ignored
or completes. -/
theorem exec_err_cases {P : State → Prop} (hi : i ≠ .srst) (h : exec i s = .next t)
    (hbody : (commandBody i s).Leaves P) :
    (t.err ≠ s.err ∧ s.err = .eNone ∧ t.st = none ∧ t.ph = .idle)
      ∨ (t.err = s.err ∧ t.errinfo = s.errinfo ∧ t.erraddr = s.erraddr ∧ (t = s ∨ P t)) := by
  have hframe := commandBody_frame hi s
  rcases exec_next h with ⟨hsrst, -⟩ | ⟨-, -, rfl⟩ | ⟨-, -, hr⟩ | ⟨e, a, u, -, herr, hr, rfl⟩
  · exact absurd hsrst hi
  · exact .inr ⟨rfl, rfl, rfl, .inl rfl⟩
  · rw [hr] at hframe hbody
    obtain ⟨herr, hinfo, haddr⟩ := BodyFrame.errorKept hframe
    exact .inr ⟨herr, hinfo, haddr, .inr hbody⟩
  · rw [hr] at hbody
    exact .inl ⟨fun heq => hbody.left (heq.trans herr), herr, rfl, rfl⟩

/-- The inputs of a command, which its body does not touch. -/
def InputsKept (s t : State) : Prop :=
  t.cfg = s.cfg ∧ t.mem = s.mem ∧ t.inbox = s.inbox ∧ t.hostReads = s.hostReads ∧ t.freeCtr = s.freeCtr
    ∧ t.seed = s.seed ∧ t.kbase = s.kbase ∧ t.klen = s.klen ∧ t.opa = s.opa ∧ t.opb = s.opb ∧ t.seed512 = s.seed512

theorem BodyFrame.inputsKept (h : BodyFrame s t) : InputsKept s t := by
  rw [BodyFrame] at h
  rw [h]
  exact ⟨rfl, rfl, rfl, rfl, rfl, rfl, rfl, rfl, rfl, rfl, rfl⟩

theorem exec_inputsKept (hi : i ≠ .srst) (h : exec i s = .next t) : InputsKept s t := by
  rcases exec_next_of_leaves hi h (commandBody_frame hi s) with rfl | hdone | ⟨e, a, u, hraised, rfl⟩
  · exact ⟨rfl, rfl, rfl, rfl, rfl, rfl, rfl, rfl, rfl, rfl, rfl⟩
  · exact hdone.inputsKept
  · exact hraised.inputsKept

/-- A primitive writes `RES` alone. -/
theorem exec_primitive (hi : isPrimitive i = true) (h : exec i s = .next t) : t = { s with res := t.res } := by
  have hsrst : i ≠ .srst := by rintro rfl; cases hi
  obtain ⟨r, hbody⟩ := commandBody_primitive hi s
  by_cases herr : s.err = .eNone
  · obtain rfl : s.setRes r = t := Host.Outcome.next.inj ((exec_done hsrst herr hbody).symm.trans h)
    rfl
  · obtain rfl : s = t := Host.Outcome.next.inj ((exec_ignored hsrst herr).symm.trans h)
    rfl

theorem exec_hash (hi : isHash i = true) (h : exec i s = .next t) : t = { s with
    digest := t.digest, st := t.st, vs := t.vs, ph := t.ph, cur := t.cur, lbase := t.lbase, llen := t.llen,
    err := t.err, errinfo := t.errinfo, erraddr := t.erraddr, keyReads := t.keyReads } := by
  have hsrst : i ≠ .srst := by rintro rfl; cases hi
  rcases exec_next_of_leaves hsrst h (commandBody_hash hi s) with
    rfl | ⟨_, _, _, _, _, _, _, _, rfl⟩ | ⟨e, a, u, ⟨_, _, _, _, _, _, _, _, rfl⟩, rfl⟩
  all_goals rfl

theorem exec_hash512 (h : exec .hash512 s = .next t) : t = { s with
    digest512 := t.digest512, st512 := t.st512, st := t.st, ph := t.ph,
    err := t.err, errinfo := t.errinfo, erraddr := t.erraddr, keyReads := t.keyReads } := by
  have hsrst : Instr.hash512 ≠ .srst := by decide
  rcases exec_next_of_leaves hsrst h (performHash512_frame s) with
    rfl | ⟨_, _, _, rfl, -⟩ | ⟨e, a, u, ⟨_, _, _, rfl, -⟩, rfl⟩
  all_goals rfl

theorem exec_gen (hi : i = .pseed ∨ i = .pnext) (h : exec i s = .next t) : t = { s with
    pstate := t.pstate, pctr := t.pctr, pout := t.pout, st := t.st, ph := t.ph,
    err := t.err, errinfo := t.errinfo, erraddr := t.erraddr } := by
  have hsrst : i ≠ .srst := by rcases hi with rfl | rfl <;> decide
  rcases exec_next_of_leaves hsrst h (commandBody_gen hi s) with
    rfl | ⟨_, _, _, rfl⟩ | ⟨e, a, u, ⟨_, _, _, rfl⟩, rfl⟩
  all_goals rfl

theorem exec_gen512 (hi : i = .pseed512 ∨ i = .pnext512) (h : exec i s = .next t) : t = { s with
    pstate512 := t.pstate512, pctr512 := t.pctr512, pout512 := t.pout512, st512 := t.st512, st := t.st, ph := t.ph,
    err := t.err, errinfo := t.errinfo, erraddr := t.erraddr } := by
  have hsrst : i ≠ .srst := by rcases hi with rfl | rfl <;> decide
  rcases exec_next_of_leaves hsrst h (commandBody_gen512 hi s) with
    rfl | ⟨_, _, _, _, rfl⟩ | ⟨e, a, u, ⟨_, _, _, _, rfl⟩, rfl⟩
  all_goals rfl

/-- Error entry leaves the event history as it is. -/
theorem exec_readsKey {base len : Word} (hi : i ≠ .srst) (h : exec i s = .next t)
    (hbody : (commandBody i s).Leaves (ReadsKey base len s)) : ReadsKey base len s t := by
  rcases exec_next_of_leaves hi h hbody with rfl | hdone | ⟨e, a, u, hraised, rfl⟩
  · exact readsKey_refl _ _ _
  · exact hdone
  · exact hraised

/-- A command that is neither a one-shot hash nor a stage command that reads leaves the event history as it is. -/
theorem exec_reads_nothing (honeShot : i ∉ ([.hash64, .vhash64, .hash512] : List Instr))
    (hstage : i ∉ ([.vmix, .bmix, .tmix] : List Instr)) (h : exec i s = .next t) : t.keyReads = s.keyReads := by
  by_cases hi : i = .srst
  · subst hi
    obtain rfl : s.resetBlock = t := Host.Outcome.next.inj h
    rfl
  · rcases exec_next_of_leaves hi h (commandBody_reads_nothing honeShot hstage s) with
      rfl | hdone | ⟨e, a, u, hraised, rfl⟩
    · rfl
    · exact hdone
    · exact hraised

end bodies

end Sys2Proof.Machine

open Sys2Proof Sys2Proof.Machine

/-- Settles O56: reset keeps the configuration, the key space and the host's records, and every other command keeps all
its inputs. -/
theorem commandsKeepInputs : Obligations.CommandsKeepInputs := by
  intro i s t h
  by_cases hi : i = .srst
  · subst hi
    obtain rfl : s.resetBlock = t := Host.Outcome.next.inj h
    exact ⟨rfl, rfl, rfl, rfl, rfl, fun hne => absurd rfl hne⟩
  · obtain ⟨hcfg, hmem, hinbox, hreads, hctr, hregs⟩ := exec_inputsKept hi h
    exact ⟨hcfg, hmem, hinbox, hreads, hctr, fun _ => hregs⟩

/-- Settles O57: the frame of each group, and what a change of `ERR` means. -/
theorem stateGroupsIsolated : Obligations.StateGroupsIsolated := by
  intro i s t h
  refine ⟨fun hi => exec_primitive hi h, fun hi => exec_hash hi h, ?hash512, fun hi => exec_gen hi h,
    fun hi => exec_gen512 hi h, fun hi hne => ?raised, fun hi hhash heq => ?kept⟩
  case hash512 =>
    rintro rfl
    exact exec_hash512 h
  case raised =>
    rcases exec_err_cases hi h (commandBody_frame hi s) with ⟨-, hraised⟩ | ⟨heq, -⟩
    · exact hraised
    · exact absurd heq hne
  case kept =>
    rcases exec_err_cases hi h (commandBody_keeps_hash hi hhash s) with
      ⟨hne, -⟩ | ⟨-, hinfo, haddr, rfl | ⟨hst, hph⟩⟩
    · exact absurd heq hne
    · exact ⟨rfl, rfl, rfl, rfl⟩
    · exact ⟨hst, hph, hinfo, haddr⟩

/-- Settles O59: the one-shot hashes read their own key, three stage commands the latched one, and no other command
reads. -/
theorem keyReadsStayInsideKey : Obligations.KeyReadsStayInsideKey := by
  intro i s t h
  by_cases honeShot : i ∈ ([.hash64, .vhash64, .hash512] : List Instr)
  case pos =>
    have hi : i ≠ .srst := by rintro rfl; simp at honeShot
    obtain ⟨as, hreads, has⟩ := exec_readsKey hi h (commandBody_reads_oneShot honeShot s)
    refine ⟨as, hreads, fun a ha => ?_⟩
    obtain ⟨hvalid, hinside⟩ := has a ha
    exact ⟨hvalid, fun _ => hinside, fun hnot => absurd honeShot hnot⟩
  by_cases hstage : i ∈ ([.vmix, .bmix, .tmix] : List Instr)
  case pos =>
    have hi : i ≠ .srst := by rintro rfl; simp at hstage
    obtain ⟨as, hreads, has⟩ := exec_readsKey hi h (commandBody_reads_stage hstage s)
    refine ⟨as, hreads, fun a ha => ?_⟩
    obtain ⟨hvalid, hinside⟩ := has a ha
    exact ⟨hvalid, fun hin => absurd hin honeShot, fun _ => ⟨hstage, hinside⟩⟩
  refine ⟨[], ?_, fun a ha => absurd ha List.not_mem_nil⟩
  rw [exec_reads_nothing honeShot hstage h, List.append_nil]
end
